-- ==== Sys2Proof/Word.lean ====
section
/-! DEFINITION. The word types of CORE's ports (`10_state.md` R28, R31). Bit 0 is the least
significant bit of every word (`00_scope.md` R7). -/

namespace Sys2Proof

/-- A data port: `a`, `b`, `c`, `r`, `r2` (R28, R31). -/
abbrev Port := BitVec 128

/-- A command word (R60). -/
abbrev CmdWord := BitVec 32

/-- The count port `k`: a rotate amount or an exponent (R28). -/
abbrev Count := BitVec 32

/-- The cause field of a response (R31). -/
abbrev CauseCode := BitVec 4

end Sys2Proof
end

