-- ==== Sys2Proof/Config.lean ====
section
/-! DEFINITION. The three static parameters of a CORE instance (`00_scope.md` R4, R5, R6) and the
free values: what the value registers hold after a reset event (`10_state.md` R35). -/

namespace Sys2Proof

/-- Parameter PW, the pointer width in bits (R4). -/
inductive PtrWidth where
  | p16
  | p32
  | p64
  | p128
  deriving DecidableEq, Repr

/-- Parameter ENDIAN, the byte order of the host (R5). -/
inductive Endian where
  | le
  | be
  deriving DecidableEq, Repr

/-- Parameter STRICT, read by NEXTPOW2 alone (R6). -/
inductive Strictness where
  | strict
  | permissive
  deriving DecidableEq, Repr

/-- `Params` of R11: fixed before reset, changed by no command (R34, R274). -/
structure Params where
  pw     : PtrWidth
  endian : Endian
  strict : Strictness
  deriving DecidableEq, Repr

/-- The parameters of `State.reset`: the spec's defaults for PW (R4) and ENDIAN (R5).
DESIGN CHOICE, safe: STRICT has no default in the spec (R6); every statement is over all
parameters (log entry 5). -/
def Config.defaultParams : Params where
  pw := .p64
  endian := .le
  strict := .strict

/-- Free value: what V16 holds after the reset event of this number (R35; log entry 2). -/
opaque Config.resetV16 : Nat → BitVec 16

/-- Free value: what V32 holds after the reset event of this number (R35; log entry 2). -/
opaque Config.resetV32 : Nat → BitVec 32

/-- Free value: what V64 holds after the reset event of this number (R35; log entry 2). -/
opaque Config.resetV64 : Nat → BitVec 64

/-- Free value: what V128 holds after the reset event of this number (R35; log entry 2). -/
opaque Config.resetV128 : Nat → BitVec 128

/-- Free value: the bits VP is given after the reset event of this number, of which VP takes its
low PW (R35; log entry 2). -/
opaque Config.resetVP : Nat → BitVec 128

end Sys2Proof
end

