-- ==== Sys2Proof/Syntax.lean ====
section
/-! DEFINITION. The command set CORE-1 as syntax: the widths, sub-word widths, the 75
instructions of `30_encoding.md` R68 (one constructor per row of the opcode table), and the
reasons a word is illegal (R70). -/

namespace Sys2Proof

/-- WSEL, the word-width selector (R62). -/
inductive Width where
  | w16
  | w32
  | w64
  | w128
  | wp
  deriving DecidableEq, Repr

/-- SH, the sub-word width code: 8, 16, 32 or 64 bits (R65). -/
inductive SubWidth where
  | sw8
  | sw16
  | sw32
  | sw64
  deriving DecidableEq, Repr

/-- POL, the overflow policy (R63). -/
inductive Policy where
  | wrap
  | ovf
  | chk
  | unchk
  | sat
  deriving DecidableEq, Repr

/-- The six items of R70, each a reason for which a word is illegal. -/
inductive Reject where
  /-- Item 1: RSV is not zero. -/
  | reservedNonzero
  /-- Item 2: WSEL is 5, 6 or 7. -/
  | widthReserved
  /-- Item 3: OPC is none of the 40 opcodes of R68. -/
  | opcodeUnassigned
  /-- Item 4: a field the format does not use is not zero. -/
  | unusedFieldNonzero
  /-- Item 5: format P and POL is 5, 6 or 7. -/
  | policyReserved
  /-- Item 6: format X and the shape does not exist at this width. -/
  | shapeMissing
  deriving DecidableEq, Repr

/-- One instruction with its fields. A format-X instruction carries the sub-word width (SH) and
the index (IDX, R66: unsigned, as it stands). Every other operand comes on a port (R69). -/
inductive Instr where
  /-- ZERO, the from-zero constructor (R100). -/
  | zero (w : Width)
  /-- SET.U, whole-value setter, unsigned shape (R101). -/
  | setU (w : Width)
  /-- SET.S, whole-value setter, signed shape (R102). -/
  | setS (w : Width)
  /-- NEWARR.U, constructor from the two half-width sub-words, unsigned shape (R103). -/
  | newarrU (w : Width)
  /-- NEWARR.S, constructor from the two half-width sub-words, signed shape (R104). -/
  | newarrS (w : Width)
  /-- GET.U, whole-value getter, unsigned shape (R105). -/
  | getU (w : Width)
  /-- GET.S, whole-value getter, signed shape (R106). -/
  | getS (w : Width)
  /-- GETSW.U, unchecked sub-word get, unsigned shape (R107). -/
  | getswU (w : Width) (sw : SubWidth) (idx : BitVec 8)
  /-- GETSW.S, unchecked sub-word get, signed shape (R108). -/
  | getswS (w : Width) (sw : SubWidth) (idx : BitVec 8)
  /-- GETSWC.U, checked sub-word get, unsigned shape (R109). -/
  | getswcU (w : Width) (sw : SubWidth) (idx : BitVec 8)
  /-- GETSWC.S, checked sub-word get, signed shape (R110). -/
  | getswcS (w : Width) (sw : SubWidth) (idx : BitVec 8)
  /-- SETSW.U, unchecked sub-word set, unsigned shape (R111). -/
  | setswU (w : Width) (sw : SubWidth) (idx : BitVec 8)
  /-- SETSW.S, unchecked sub-word set, signed shape (R112). -/
  | setswS (w : Width) (sw : SubWidth) (idx : BitVec 8)
  /-- SETSWC.U, checked sub-word set, unsigned shape (R113). -/
  | setswcU (w : Width) (sw : SubWidth) (idx : BitVec 8)
  /-- SETSWC.S, checked sub-word set, signed shape (R114). -/
  | setswcS (w : Width) (sw : SubWidth) (idx : BitVec 8)
  /-- ADC, add with carry in and out (R130). -/
  | adc (w : Width)
  /-- SBB, subtract with borrow in and out (R132). -/
  | sbb (w : Width)
  /-- MULW, widening multiply (R140). -/
  | mulw (w : Width)
  /-- MULC, widening multiply with an incoming carry limb (R143). -/
  | mulc (w : Width)
  /-- ADD.wrap, wrapping add (R151). -/
  | addWrap (w : Width)
  /-- ADD.ovf, overflowing add (R152). -/
  | addOvf (w : Width)
  /-- ADD.chk, checked add (R153). -/
  | addChk (w : Width)
  /-- ADD.unchk, unchecked add (R154). -/
  | addUnchk (w : Width)
  /-- ADD.sat, saturating add (R155). -/
  | addSat (w : Width)
  /-- SUB.wrap, wrapping subtract (R156). -/
  | subWrap (w : Width)
  /-- SUB.ovf, overflowing subtract (R157). -/
  | subOvf (w : Width)
  /-- SUB.chk, checked subtract (R158). -/
  | subChk (w : Width)
  /-- SUB.unchk, unchecked subtract (R159). -/
  | subUnchk (w : Width)
  /-- SUB.sat, saturating subtract (R160). -/
  | subSat (w : Width)
  /-- MUL.wrap, wrapping multiply (R161). -/
  | mulWrap (w : Width)
  /-- MUL.ovf, overflowing multiply (R162). -/
  | mulOvf (w : Width)
  /-- MUL.chk, checked multiply (R163). -/
  | mulChk (w : Width)
  /-- MUL.unchk, unchecked multiply (R164). -/
  | mulUnchk (w : Width)
  /-- MUL.sat, saturating multiply (R165). -/
  | mulSat (w : Width)
  /-- DIV.wrap, wrapping divide (R166). -/
  | divWrap (w : Width)
  /-- DIV.ovf, overflowing divide (R167). -/
  | divOvf (w : Width)
  /-- DIV.chk, checked divide (R168). -/
  | divChk (w : Width)
  /-- DIV.unchk, unchecked divide (R169). -/
  | divUnchk (w : Width)
  /-- DIV.sat, saturating divide (R170). -/
  | divSat (w : Width)
  /-- REM.wrap, wrapping remainder (R171). -/
  | remWrap (w : Width)
  /-- REM.ovf, overflowing remainder (R172). -/
  | remOvf (w : Width)
  /-- REM.chk, checked remainder (R173). -/
  | remChk (w : Width)
  /-- REM.unchk, unchecked remainder (R174). -/
  | remUnchk (w : Width)
  /-- REM.sat, saturating remainder (R175). -/
  | remSat (w : Width)
  /-- NEG.wrap, wrapping negate (R176). -/
  | negWrap (w : Width)
  /-- NEG.ovf, overflowing negate (R177). -/
  | negOvf (w : Width)
  /-- NEG.chk, checked negate (R178). -/
  | negChk (w : Width)
  /-- NEG.unchk, unchecked negate (R179). -/
  | negUnchk (w : Width)
  /-- NEG.sat, saturating negate (R180). -/
  | negSat (w : Width)
  /-- POW.wrap, wrapping power (R181). -/
  | powWrap (w : Width)
  /-- POW.ovf, overflowing power (R182). -/
  | powOvf (w : Width)
  /-- POW.chk, checked power (R183). -/
  | powChk (w : Width)
  /-- POW.unchk, unchecked power (R184). -/
  | powUnchk (w : Width)
  /-- POW.sat, saturating power (R185). -/
  | powSat (w : Width)
  /-- ABSDIFF, absolute difference (R186). -/
  | absdiff (w : Width)
  /-- ROTL, rotate left (R200). -/
  | rotl (w : Width)
  /-- ROTR, rotate right (R201). -/
  | rotr (w : Width)
  /-- BREV, reverse the bits (R203). -/
  | brev (w : Width)
  /-- CNT1, count ones (R204). -/
  | cnt1 (w : Width)
  /-- CNT0, count zeros (R205). -/
  | cnt0 (w : Width)
  /-- LD1, leading ones (R206). -/
  | ld1 (w : Width)
  /-- LD0, leading zeros (R207). -/
  | ld0 (w : Width)
  /-- TR1, trailing ones (R208). -/
  | tr1 (w : Width)
  /-- TR0, trailing zeros (R209). -/
  | tr0 (w : Width)
  /-- BSWAP, swap bytes (R210). -/
  | bswap (w : Width)
  /-- TOBE, to big-endian (R211). -/
  | tobe (w : Width)
  /-- TOLE, to little-endian (R212). -/
  | tole (w : Width)
  /-- FROMBE, from big-endian (R213). -/
  | frombe (w : Width)
  /-- FROMLE, from little-endian (R214). -/
  | fromle (w : Width)
  /-- ISPOW2, is a power of two (R215). -/
  | ispow2 (w : Width)
  /-- NEXTPOW2, next power of two (R216). -/
  | nextpow2 (w : Width)
  /-- ILOG, floor logarithm, base on port b (R230). -/
  | ilog (w : Width)
  /-- ILOG2, floor logarithm, base 2 (R231). -/
  | ilog2 (w : Width)
  /-- ILOG10, floor logarithm, base 10 (R232). -/
  | ilog10 (w : Width)
  /-- ISQRT, floor square root (R233). -/
  | isqrt (w : Width)
  deriving DecidableEq, Repr

end Sys2Proof
end

