-- ==== Sys2Proof/Machine/Widths.lean ====
section
/-! DEFINITION. How many bits each width selector names (`30_encoding.md` R62, R65) and which
array shapes exist (`10_state.md` R24). -/

namespace Sys2Proof

/-- The pointer width in bits (`00_scope.md` R4). -/
def PtrWidth.bits : PtrWidth → Nat
  | .p16 => 16
  | .p32 => 32
  | .p64 => 64
  | .p128 => 128

/-- The width `n` in force (R9, R62): WP takes the pointer width. -/
def Width.bits (pw : PtrWidth) : Width → Nat
  | .w16 => 16
  | .w32 => 32
  | .w64 => 64
  | .w128 => 128
  | .wp => pw.bits

/-- The sub-word width `w = 8 * 2^SH` (R65). -/
def SubWidth.bits : SubWidth → Nat
  | .sw8 => 8
  | .sw16 => 16
  | .sw32 => 32
  | .sw64 => 64

/-- An array shape exists exactly when `8 <= w <= n/2` (R24, R65). -/
def shapeExists (pw : PtrWidth) (w : Width) (sw : SubWidth) : Bool :=
  decide (sw.bits ≤ w.bits pw / 2)

end Sys2Proof
end

