-- ==== Sys2Proof/WellFormed.lean ====
section
/-! DEFINITION. Which instruction terms are legal: a format-X instruction names an array shape that
exists at its width (`30_encoding.md` R65, R70 item 6). The types of the other fields leave no
room for an ill-formed one. The check depends on PW for WSEL = WP alone (R72). -/

namespace Sys2Proof

/-- `i` is an instruction of CORE with pointer width `pw`. -/
def Instr.wellFormed (pw : PtrWidth) : Instr → Bool
  | .zero _ => true
  | .setU _ => true
  | .setS _ => true
  | .newarrU _ => true
  | .newarrS _ => true
  | .getU _ => true
  | .getS _ => true
  | .getswU w sw _ => shapeExists pw w sw
  | .getswS w sw _ => shapeExists pw w sw
  | .getswcU w sw _ => shapeExists pw w sw
  | .getswcS w sw _ => shapeExists pw w sw
  | .setswU w sw _ => shapeExists pw w sw
  | .setswS w sw _ => shapeExists pw w sw
  | .setswcU w sw _ => shapeExists pw w sw
  | .setswcS w sw _ => shapeExists pw w sw
  | .adc _ => true
  | .sbb _ => true
  | .mulw _ => true
  | .mulc _ => true
  | .addWrap _ => true
  | .addOvf _ => true
  | .addChk _ => true
  | .addUnchk _ => true
  | .addSat _ => true
  | .subWrap _ => true
  | .subOvf _ => true
  | .subChk _ => true
  | .subUnchk _ => true
  | .subSat _ => true
  | .mulWrap _ => true
  | .mulOvf _ => true
  | .mulChk _ => true
  | .mulUnchk _ => true
  | .mulSat _ => true
  | .divWrap _ => true
  | .divOvf _ => true
  | .divChk _ => true
  | .divUnchk _ => true
  | .divSat _ => true
  | .remWrap _ => true
  | .remOvf _ => true
  | .remChk _ => true
  | .remUnchk _ => true
  | .remSat _ => true
  | .negWrap _ => true
  | .negOvf _ => true
  | .negChk _ => true
  | .negUnchk _ => true
  | .negSat _ => true
  | .powWrap _ => true
  | .powOvf _ => true
  | .powChk _ => true
  | .powUnchk _ => true
  | .powSat _ => true
  | .absdiff _ => true
  | .rotl _ => true
  | .rotr _ => true
  | .brev _ => true
  | .cnt1 _ => true
  | .cnt0 _ => true
  | .ld1 _ => true
  | .ld0 _ => true
  | .tr1 _ => true
  | .tr0 _ => true
  | .bswap _ => true
  | .tobe _ => true
  | .tole _ => true
  | .frombe _ => true
  | .fromle _ => true
  | .ispow2 _ => true
  | .nextpow2 _ => true
  | .ilog _ => true
  | .ilog2 _ => true
  | .ilog10 _ => true
  | .isqrt _ => true

end Sys2Proof
end

