-- ==== Sys2Proof/Decode.lean ====
section
/-! DEFINITION. The decoder of command words (`30_encoding.md` R60 to R73), total on every 32-bit
word and refusing by name; after it the encoder, the aliases of R75 and the assembler text of R74. -/

namespace Sys2Proof

/-- The fields of a command word (R60). -/
structure Fields where
  opc  : BitVec 8
  wsel : BitVec 3
  pol  : BitVec 3
  s    : BitVec 1
  sh   : BitVec 2
  idx  : BitVec 8
  rsv  : BitVec 7
  deriving DecidableEq, Repr

/-- Cutting a word into its fields: OPC 7:0, WSEL 10:8, POL 13:11, S 14, SH 16:15, IDX 24:17,
RSV 31:25 (R60). -/
def fieldsOf (word : CmdWord) : Fields where
  opc := word.extractLsb' 0 8
  wsel := word.extractLsb' 8 3
  pol := word.extractLsb' 11 3
  s := word.extractLsb' 14 1
  sh := word.extractLsb' 15 2
  idx := word.extractLsb' 17 8
  rsv := word.extractLsb' 25 7

/-- Putting fields together, most significant field on the left as in the bit picture of R67. -/
def wordOf (f : Fields) : CmdWord :=
  f.rsv ++ f.idx ++ f.sh ++ f.s ++ f.pol ++ f.wsel ++ f.opc

/-- What WSEL selects (R62); 5, 6 and 7 are reserved. -/
def widthOf (wsel : BitVec 3) : Option Width :=
  match wsel.toNat with
  | 0 => some .w16
  | 1 => some .w32
  | 2 => some .w64
  | 3 => some .w128
  | 4 => some .wp
  | _ => none

/-- What POL selects (R63); 5, 6 and 7 are illegal. -/
def policyOf (pol : BitVec 3) : Option Policy :=
  match pol.toNat with
  | 0 => some .wrap
  | 1 => some .ovf
  | 2 => some .chk
  | 3 => some .unchk
  | 4 => some .sat
  | _ => none

/-- What SH selects (R65). -/
def subWidthOf (sh : BitVec 2) : SubWidth :=
  match sh.toNat with
  | 0 => .sw8
  | 1 => .sw16
  | 2 => .sw32
  | _ => .sw64

/-- A row of the opcode map: its format (R67) and the instructions it holds, for formats V and X
the unsigned then the signed one (R64), for format P one per policy in the order of R63. -/
inductive OpRow where
  | fmtN (mk : Width → Instr)
  | fmtV (mkU mkS : Width → Instr)
  | fmtX (mkU mkS : Width → SubWidth → BitVec 8 → Instr)
  | fmtP (mkWrap mkOvf mkChk mkUnchk mkSat : Width → Instr)

/-- The opcode map (R68); every other opcode is unassigned (R71). -/
def opcodeRow (opc : BitVec 8) : Option OpRow :=
  match opc.toNat with
  | 0x00 => some (.fmtN .zero)
  | 0x01 => some (.fmtV .setU .setS)
  | 0x02 => some (.fmtV .newarrU .newarrS)
  | 0x03 => some (.fmtV .getU .getS)
  | 0x04 => some (.fmtX .getswU .getswS)
  | 0x05 => some (.fmtX .getswcU .getswcS)
  | 0x06 => some (.fmtX .setswU .setswS)
  | 0x07 => some (.fmtX .setswcU .setswcS)
  | 0x10 => some (.fmtN .adc)
  | 0x11 => some (.fmtN .sbb)
  | 0x20 => some (.fmtN .mulw)
  | 0x21 => some (.fmtN .mulc)
  | 0x30 => some (.fmtP .addWrap .addOvf .addChk .addUnchk .addSat)
  | 0x31 => some (.fmtP .subWrap .subOvf .subChk .subUnchk .subSat)
  | 0x32 => some (.fmtP .mulWrap .mulOvf .mulChk .mulUnchk .mulSat)
  | 0x33 => some (.fmtP .divWrap .divOvf .divChk .divUnchk .divSat)
  | 0x34 => some (.fmtP .remWrap .remOvf .remChk .remUnchk .remSat)
  | 0x35 => some (.fmtP .negWrap .negOvf .negChk .negUnchk .negSat)
  | 0x36 => some (.fmtP .powWrap .powOvf .powChk .powUnchk .powSat)
  | 0x37 => some (.fmtN .absdiff)
  | 0x40 => some (.fmtN .rotl)
  | 0x41 => some (.fmtN .rotr)
  | 0x42 => some (.fmtN .brev)
  | 0x43 => some (.fmtN .cnt1)
  | 0x44 => some (.fmtN .cnt0)
  | 0x45 => some (.fmtN .ld1)
  | 0x46 => some (.fmtN .ld0)
  | 0x47 => some (.fmtN .tr1)
  | 0x48 => some (.fmtN .tr0)
  | 0x49 => some (.fmtN .bswap)
  | 0x4A => some (.fmtN .tobe)
  | 0x4B => some (.fmtN .tole)
  | 0x4C => some (.fmtN .frombe)
  | 0x4D => some (.fmtN .fromle)
  | 0x4E => some (.fmtN .ispow2)
  | 0x4F => some (.fmtN .nextpow2)
  | 0x50 => some (.fmtN .ilog)
  | 0x51 => some (.fmtN .ilog2)
  | 0x52 => some (.fmtN .ilog10)
  | 0x53 => some (.fmtN .isqrt)
  | _ => none

/-- Is a field that the row's format does not use non-zero (R67, R70 item 4)? -/
def unusedNonzero (f : Fields) : OpRow → Bool
  | .fmtN _ => f.pol != 0 || f.s != 0 || f.sh != 0 || f.idx != 0
  | .fmtV _ _ => f.pol != 0 || f.sh != 0 || f.idx != 0
  | .fmtX _ _ => f.pol != 0
  | .fmtP _ _ _ _ _ => f.s != 0 || f.sh != 0 || f.idx != 0

/-- The instruction a row makes of the fields it uses (R64 to R66, R70 items 5 and 6). -/
def readRow (pw : PtrWidth) (f : Fields) (w : Width) : OpRow → Except Reject Instr
  | .fmtN mk => .ok (mk w)
  | .fmtV mkU mkS => .ok (if f.s = 0 then mkU w else mkS w)
  | .fmtX mkU mkS =>
    let sw := subWidthOf f.sh
    if shapeExists pw w sw then .ok (if f.s = 0 then mkU w sw f.idx else mkS w sw f.idx)
    else .error .shapeMissing
  | .fmtP mkWrap mkOvf mkChk mkUnchk mkSat =>
    match policyOf f.pol with
    | some .wrap => .ok (mkWrap w)
    | some .ovf => .ok (mkOvf w)
    | some .chk => .ok (mkChk w)
    | some .unchk => .ok (mkUnchk w)
    | some .sat => .ok (mkSat w)
    | none => .error .policyReserved

/-- Decoding from the fields, testing in the order of R70. -/
def decodeFields (pw : PtrWidth) (f : Fields) : Except Reject Instr :=
  if f.rsv ≠ 0 then .error .reservedNonzero
  else
    match widthOf f.wsel with
    | none => .error .widthReserved
    | some w =>
      match opcodeRow f.opc with
      | none => .error .opcodeUnassigned
      | some row => if unusedNonzero f row then .error .unusedFieldNonzero else readRow pw f w row

/-- The decoder (R73): every 32-bit word is one instruction with legal fields, or illegal. -/
def decode (pw : PtrWidth) (word : CmdWord) : Except Reject Instr :=
  decodeFields pw (fieldsOf word)

/-- The instruction the decoder reads from a word of the opcode table, at the default pointer width
(R4); the table's words are single 32-bit command words (R60). -/
def decodeTableWord (nbits w : Nat) : Option Instr :=
  match decode Config.defaultParams.pw (BitVec.ofNat 32 (w % 2 ^ nbits)) with
  | .ok i => some i
  | .error _ => none

/-- The WSEL code of a width (R62). -/
def Width.code : Width → BitVec 3
  | .w16 => 0
  | .w32 => 1
  | .w64 => 2
  | .w128 => 3
  | .wp => 4

/-- The POL code of a policy (R63). -/
def Policy.code : Policy → BitVec 3
  | .wrap => 0
  | .ovf => 1
  | .chk => 2
  | .unchk => 3
  | .sat => 4

/-- The SH code of a sub-word width (R65). -/
def SubWidth.code : SubWidth → BitVec 2
  | .sw8 => 0
  | .sw16 => 1
  | .sw32 => 2
  | .sw64 => 3

/-- A format-N word (R67). -/
def wordN (opc : BitVec 8) (w : Width) : CmdWord :=
  wordOf { opc := opc, wsel := w.code, pol := 0, s := 0, sh := 0, idx := 0, rsv := 0 }

/-- A format-V word (R67). -/
def wordV (opc : BitVec 8) (w : Width) (s : BitVec 1) : CmdWord :=
  wordOf { opc := opc, wsel := w.code, pol := 0, s := s, sh := 0, idx := 0, rsv := 0 }

/-- A format-X word (R67). -/
def wordX (opc : BitVec 8) (w : Width) (s : BitVec 1) (sw : SubWidth) (idx : BitVec 8) : CmdWord :=
  wordOf { opc := opc, wsel := w.code, pol := 0, s := s, sh := sw.code, idx := idx, rsv := 0 }

/-- A format-P word (R67). -/
def wordP (opc : BitVec 8) (w : Width) (p : Policy) : CmdWord :=
  wordOf { opc := opc, wsel := w.code, pol := p.code, s := 0, sh := 0, idx := 0, rsv := 0 }

/-- The command word of an instruction (R60, R68). -/
def encode : Instr → CmdWord
  | .zero w => wordN 0x00 w
  | .setU w => wordV 0x01 w 0
  | .setS w => wordV 0x01 w 1
  | .newarrU w => wordV 0x02 w 0
  | .newarrS w => wordV 0x02 w 1
  | .getU w => wordV 0x03 w 0
  | .getS w => wordV 0x03 w 1
  | .getswU w sw idx => wordX 0x04 w 0 sw idx
  | .getswS w sw idx => wordX 0x04 w 1 sw idx
  | .getswcU w sw idx => wordX 0x05 w 0 sw idx
  | .getswcS w sw idx => wordX 0x05 w 1 sw idx
  | .setswU w sw idx => wordX 0x06 w 0 sw idx
  | .setswS w sw idx => wordX 0x06 w 1 sw idx
  | .setswcU w sw idx => wordX 0x07 w 0 sw idx
  | .setswcS w sw idx => wordX 0x07 w 1 sw idx
  | .adc w => wordN 0x10 w
  | .sbb w => wordN 0x11 w
  | .mulw w => wordN 0x20 w
  | .mulc w => wordN 0x21 w
  | .addWrap w => wordP 0x30 w .wrap
  | .addOvf w => wordP 0x30 w .ovf
  | .addChk w => wordP 0x30 w .chk
  | .addUnchk w => wordP 0x30 w .unchk
  | .addSat w => wordP 0x30 w .sat
  | .subWrap w => wordP 0x31 w .wrap
  | .subOvf w => wordP 0x31 w .ovf
  | .subChk w => wordP 0x31 w .chk
  | .subUnchk w => wordP 0x31 w .unchk
  | .subSat w => wordP 0x31 w .sat
  | .mulWrap w => wordP 0x32 w .wrap
  | .mulOvf w => wordP 0x32 w .ovf
  | .mulChk w => wordP 0x32 w .chk
  | .mulUnchk w => wordP 0x32 w .unchk
  | .mulSat w => wordP 0x32 w .sat
  | .divWrap w => wordP 0x33 w .wrap
  | .divOvf w => wordP 0x33 w .ovf
  | .divChk w => wordP 0x33 w .chk
  | .divUnchk w => wordP 0x33 w .unchk
  | .divSat w => wordP 0x33 w .sat
  | .remWrap w => wordP 0x34 w .wrap
  | .remOvf w => wordP 0x34 w .ovf
  | .remChk w => wordP 0x34 w .chk
  | .remUnchk w => wordP 0x34 w .unchk
  | .remSat w => wordP 0x34 w .sat
  | .negWrap w => wordP 0x35 w .wrap
  | .negOvf w => wordP 0x35 w .ovf
  | .negChk w => wordP 0x35 w .chk
  | .negUnchk w => wordP 0x35 w .unchk
  | .negSat w => wordP 0x35 w .sat
  | .powWrap w => wordP 0x36 w .wrap
  | .powOvf w => wordP 0x36 w .ovf
  | .powChk w => wordP 0x36 w .chk
  | .powUnchk w => wordP 0x36 w .unchk
  | .powSat w => wordP 0x36 w .sat
  | .absdiff w => wordN 0x37 w
  | .rotl w => wordN 0x40 w
  | .rotr w => wordN 0x41 w
  | .brev w => wordN 0x42 w
  | .cnt1 w => wordN 0x43 w
  | .cnt0 w => wordN 0x44 w
  | .ld1 w => wordN 0x45 w
  | .ld0 w => wordN 0x46 w
  | .tr1 w => wordN 0x47 w
  | .tr0 w => wordN 0x48 w
  | .bswap w => wordN 0x49 w
  | .tobe w => wordN 0x4A w
  | .tole w => wordN 0x4B w
  | .frombe w => wordN 0x4C w
  | .fromle w => wordN 0x4D w
  | .ispow2 w => wordN 0x4E w
  | .nextpow2 w => wordN 0x4F w
  | .ilog w => wordN 0x50 w
  | .ilog2 w => wordN 0x51 w
  | .ilog10 w => wordN 0x52 w
  | .isqrt w => wordN 0x53 w

/-- The alias NEW.ZERO (R75). -/
def newZero (w : Width) : Instr := .zero w

/-- The alias NEW.U (R75). -/
def newU (w : Width) : Instr := .setU w

/-- The alias NEW.S (R75). -/
def newS (w : Width) : Instr := .setS w

/-- The assembler's name of a width (R74). -/
def Width.asm : Width → String
  | .w16 => "W16"
  | .w32 => "W32"
  | .w64 => "W64"
  | .w128 => "W128"
  | .wp => "WP"

/-- The assembler's name of a sub-word shape (R74). -/
def SubWidth.asm : SubWidth → String
  | .sw8 => "sw8"
  | .sw16 => "sw16"
  | .sw32 => "sw32"
  | .sw64 => "sw64"

/-- A line of formats N, V and P (R74), without the host's port and response bindings. -/
def asmLine (mnemonic : String) (w : Width) : String := mnemonic ++ " " ++ w.asm

/-- A line of format X (R74), without the host's port and response bindings. -/
def asmSub (mnemonic : String) (w : Width) (sw : SubWidth) (idx : BitVec 8) : String :=
  asmLine mnemonic w ++ ", " ++ sw.asm ++ "[" ++ toString idx.toNat ++ "]"

/-- The assembler text of an instruction (R74): the part that stands for the command word. -/
def assembly : Instr → String
  | .zero w => asmLine "ZERO" w
  | .setU w => asmLine "SET.U" w
  | .setS w => asmLine "SET.S" w
  | .newarrU w => asmLine "NEWARR.U" w
  | .newarrS w => asmLine "NEWARR.S" w
  | .getU w => asmLine "GET.U" w
  | .getS w => asmLine "GET.S" w
  | .getswU w sw idx => asmSub "GETSW.U" w sw idx
  | .getswS w sw idx => asmSub "GETSW.S" w sw idx
  | .getswcU w sw idx => asmSub "GETSWC.U" w sw idx
  | .getswcS w sw idx => asmSub "GETSWC.S" w sw idx
  | .setswU w sw idx => asmSub "SETSW.U" w sw idx
  | .setswS w sw idx => asmSub "SETSW.S" w sw idx
  | .setswcU w sw idx => asmSub "SETSWC.U" w sw idx
  | .setswcS w sw idx => asmSub "SETSWC.S" w sw idx
  | .adc w => asmLine "ADC" w
  | .sbb w => asmLine "SBB" w
  | .mulw w => asmLine "MULW" w
  | .mulc w => asmLine "MULC" w
  | .addWrap w => asmLine "ADD.wrap" w
  | .addOvf w => asmLine "ADD.ovf" w
  | .addChk w => asmLine "ADD.chk" w
  | .addUnchk w => asmLine "ADD.unchk" w
  | .addSat w => asmLine "ADD.sat" w
  | .subWrap w => asmLine "SUB.wrap" w
  | .subOvf w => asmLine "SUB.ovf" w
  | .subChk w => asmLine "SUB.chk" w
  | .subUnchk w => asmLine "SUB.unchk" w
  | .subSat w => asmLine "SUB.sat" w
  | .mulWrap w => asmLine "MUL.wrap" w
  | .mulOvf w => asmLine "MUL.ovf" w
  | .mulChk w => asmLine "MUL.chk" w
  | .mulUnchk w => asmLine "MUL.unchk" w
  | .mulSat w => asmLine "MUL.sat" w
  | .divWrap w => asmLine "DIV.wrap" w
  | .divOvf w => asmLine "DIV.ovf" w
  | .divChk w => asmLine "DIV.chk" w
  | .divUnchk w => asmLine "DIV.unchk" w
  | .divSat w => asmLine "DIV.sat" w
  | .remWrap w => asmLine "REM.wrap" w
  | .remOvf w => asmLine "REM.ovf" w
  | .remChk w => asmLine "REM.chk" w
  | .remUnchk w => asmLine "REM.unchk" w
  | .remSat w => asmLine "REM.sat" w
  | .negWrap w => asmLine "NEG.wrap" w
  | .negOvf w => asmLine "NEG.ovf" w
  | .negChk w => asmLine "NEG.chk" w
  | .negUnchk w => asmLine "NEG.unchk" w
  | .negSat w => asmLine "NEG.sat" w
  | .powWrap w => asmLine "POW.wrap" w
  | .powOvf w => asmLine "POW.ovf" w
  | .powChk w => asmLine "POW.chk" w
  | .powUnchk w => asmLine "POW.unchk" w
  | .powSat w => asmLine "POW.sat" w
  | .absdiff w => asmLine "ABSDIFF" w
  | .rotl w => asmLine "ROTL" w
  | .rotr w => asmLine "ROTR" w
  | .brev w => asmLine "BREV" w
  | .cnt1 w => asmLine "CNT1" w
  | .cnt0 w => asmLine "CNT0" w
  | .ld1 w => asmLine "LD1" w
  | .ld0 w => asmLine "LD0" w
  | .tr1 w => asmLine "TR1" w
  | .tr0 w => asmLine "TR0" w
  | .bswap w => asmLine "BSWAP" w
  | .tobe w => asmLine "TOBE" w
  | .tole w => asmLine "TOLE" w
  | .frombe w => asmLine "FROMBE" w
  | .fromle w => asmLine "FROMLE" w
  | .ispow2 w => asmLine "ISPOW2" w
  | .nextpow2 w => asmLine "NEXTPOW2" w
  | .ilog w => asmLine "ILOG" w
  | .ilog2 w => asmLine "ILOG2" w
  | .ilog10 w => asmLine "ILOG10" w
  | .isqrt w => asmLine "ISQRT" w

end Sys2Proof
end

