-- ==== Sys2Proof/Machine/State.lean ====
section
/-! DEFINITION. The state of one CORE instance as plain data: the five value registers
(`10_state.md` R20), what one step of the model exchanges with the host (R28, R31, R11), and the
reasons a step can stop. There is no memory (`20_memory.md` R40). -/

namespace Sys2Proof.Machine

/-- A command as the host presents it: the command word and the operand ports, all sampled
together (R28; `70_reset_and_hazards.md` R277). -/
structure Command where
  cmd : CmdWord
  a   : Port
  b   : Port
  c   : Port
  cin : Bool
  k   : Count
  deriving DecidableEq, Repr

/-- The response to a command, as plain ports: of an abort or an absent answer they carry zero, which
is no result (R31, R249 b; log entry 10). -/
structure Response where
  r     : Port
  r2    : Port
  fo    : Bool
  ok    : Bool
  abort : Bool
  cause : CauseCode
  deriving DecidableEq, Repr

/-- The six abort causes (`60_exceptions.md` R240). -/
inductive Cause where
  | illegal
  | idxRange
  | divZero
  | overflow
  | logDomain
  | pow2Range
  deriving DecidableEq, Repr

/-- What the host does to CORE: presents a command (R30) or applies reset (R270). -/
inductive Event where
  | command (c : Command)
  | reset
  deriving DecidableEq, Repr

/-- The state. The value registers are the spec's whole state (R20). The other fields are how the
model's step takes its arguments and gives its answer (log entry 4), and two fields of the model's
own that no instruction reads: `runFault` (log entry 6) and `resets` (log entry 2). -/
structure State where
  /-- PW, ENDIAN, STRICT: static (R34, R274). -/
  params   : Params
  /-- The Width Variant of 16 bits. -/
  v16      : BitVec 16
  /-- The Width Variant of 32 bits. -/
  v32      : BitVec 32
  /-- The Width Variant of 64 bits. -/
  v64      : BitVec 64
  /-- The Width Variant of 128 bits. -/
  v128     : BitVec 128
  /-- The Width Variant of pointer width: the low PW bits (log entry 3). -/
  vp       : BitVec 128
  /-- The command under way (R28). -/
  ports    : Command
  /-- The response to the last command since reset, if there was one (R31, R36). -/
  response : Option Response
  /-- The host's events not yet taken, in order (R30, R270). -/
  pending  : List Event
  /-- The first abort of the run, cleared by no step (R249). -/
  runFault : Option Cause
  /-- How many reset events the run has seen: the index of the free reset contents (R35). -/
  resets   : Nat
  deriving DecidableEq, Repr

/-- No step ends in a fault: an abort is a response after which CORE goes on (R249), there is no
halted state, and no command can hang (R278). -/
inductive Fault
  deriving DecidableEq, Repr

/-- Why an instruction has no meaning. -/
inductive Refusal where
  /-- Raised by an arm of `exec` for an instruction not modelled yet; safe. No arm raises it. -/
  | notModelled (mnemonic : String)
  deriving DecidableEq, Repr

/-- What a meaning answers. -/
abbrev Result := Host.Outcome State Fault Refusal

/-- Ports at rest: all zero. DESIGN CHOICE, safe: the ports are no state and have no reset value
(R36; log entry 4). -/
def Command.idle : Command where
  cmd := 0
  a := 0
  b := 0
  c := 0
  cin := false
  k := 0

/-- The machine right after reset, with nothing presented (R270 to R272). DESIGN CHOICE, unsafe:
the spec leaves the five value registers unspecified (R35, R271) and the model names zero
(log entry 1). -/
def State.reset : State where
  params := Config.defaultParams
  v16 := 0
  v32 := 0
  v64 := 0
  v128 := 0
  vp := 0
  ports := Command.idle
  response := none
  pending := []
  runFault := none
  resets := 0

end Sys2Proof.Machine
end

