-- ==== Sys2Proof/Machine/Ops.lean ====
section
/-! DEFINITION. The named operations over the state: reading and writing a value register, giving a
response, taking an abort, taking the host's next event, and the reset event. There is no return
from an abort, because an abort neither saves nor changes anything (`60_exceptions.md` R251), and
no memory to operate on (`20_memory.md` R40). -/

namespace Sys2Proof.Machine

/-- The width `n` in force for a command (`00_scope.md` R9). -/
def State.width (s : State) (w : Width) : Nat := w.bits s.params.pw

/-- The content of the value register WSEL selects, zero-extended (R62, R105). VP is its low PW
bits (R21). -/
def State.readReg (s : State) : Width → BitVec 128
  | .w16 => s.v16.setWidth 128
  | .w32 => s.v32.setWidth 128
  | .w64 => s.v64.setWidth 128
  | .w128 => s.v128
  | .wp => (s.vp.setWidth s.params.pw.bits).setWidth 128

/-- Writing all bits of the value register WSEL selects with the low `n` bits of `v`; no other
register changes (`10_state.md` R22). -/
def State.writeReg (s : State) (w : Width) (v : BitVec 128) : State :=
  match w with
  | .w16 => { s with v16 := v.setWidth 16 }
  | .w32 => { s with v32 := v.setWidth 32 }
  | .w64 => { s with v64 := v.setWidth 64 }
  | .w128 => { s with v128 := v }
  | .wp => { s with vp := (v.setWidth s.params.pw.bits).setWidth 128 }

/-- `V[s]` of the pseudocode: the register's content at its own width (R10). -/
def State.regVal (s : State) (w : Width) : BitVec (s.width w) :=
  (s.readReg w).setWidth (s.width w)

/-- Giving a response. -/
def State.setResponse (s : State) (resp : Response) : State :=
  { s with response := some resp }

/-- The response of a command that completes and is not a checked form, with primary result `r`
(R32 c, d, e). -/
def Response.value (r : Port) : Response where
  r := r
  r2 := 0
  fo := false
  ok := true
  abort := false
  cause := 0

/-- The response of a command that completes and returns nothing (R32 c, d). -/
def Response.done : Response := Response.value 0

/-- The answer of a checked form whose result is absent or whose store failed: `ok = 0`, the port
carries zero as filling and not as a result, no abort (R109, R113, R150; log entry 10). -/
def Response.absent : Response where
  r := 0
  r2 := 0
  fo := false
  ok := false
  abort := false
  cause := 0

/-- The code of a cause (R240). -/
def Cause.code : Cause → CauseCode
  | .illegal => 0
  | .idxRange => 1
  | .divZero => 2
  | .overflow => 3
  | .logDomain => 4
  | .pow2Range => 5

/-- The abort response (R249 b): its zeros are port filling, no results (log entry 10). -/
def Response.aborted (c : Cause) : Response where
  r := 0
  r2 := 0
  fo := false
  ok := false
  abort := true
  cause := c.code

/-- TAKING AN ABORT (R249), the one shared operation: no value register changes, the response is the
abort response, and CORE is ready for the next command. The run is recorded as faulted by its
first abort, as R249 advises (log entry 6). -/
def State.takeAbort (s : State) (c : Cause) : State :=
  { s with
    response := some (Response.aborted c)
    runFault := match s.runFault with
      | some first => some first
      | none => some c }

/-- How a command ends: with a response, or in an abort (R12). -/
inductive Answer where
  | done (resp : Response)
  | abort (c : Cause)
  deriving DecidableEq, Repr

/-- A command that touches no value register ends with its answer (R26). -/
def State.answer (s : State) : Answer → Result
  | .done resp => .next (s.setResponse resp)
  | .abort c => .next (s.takeAbort c)

/-- A command that writes a whole value register ends, returning nothing (R100 to R104). -/
def State.store (s : State) (w : Width) (v : BitVec 128) : Result :=
  .next ((s.writeReg w v).setResponse Response.done)

/-- Taking the host's next command: its word and ports are sampled together, once (R277). -/
def State.latch (s : State) (c : Command) (rest : List Event) : State :=
  { s with ports := c, pending := rest }

/-- The reset event (`70_reset_and_hazards.md` R270, R271): every value register takes an unspecified
content, which is a free value of its own for each reset (R35; log entry 2); no response is
pending; the parameters are not touched. CORE remembers no abort, but the run's record of one is
cleared by no step (R249; log entry 6). -/
def State.applyReset (s : State) (rest : List Event) : State where
  params := s.params
  v16 := Config.resetV16 s.resets
  v32 := Config.resetV32 s.resets
  v64 := Config.resetV64 s.resets
  v128 := Config.resetV128 s.resets
  vp := ((Config.resetVP s.resets).setWidth s.params.pw.bits).setWidth 128
  ports := Command.idle
  response := none
  pending := rest
  runFault := s.runFault
  resets := s.resets + 1

/-- The state with one more command lined up before all others: the word `word` on the ports as they
stand. -/
def State.presentWord (s : State) (word : CmdWord) : State :=
  { s with pending := .command { s.ports with cmd := word } :: s.pending }

end Sys2Proof.Machine
end

