-- ==== Sys2Proof/Machine/Operands.lean ====
section
/-! DEFINITION. Every operand form of CORE: the ports cut to the width in force (`10_state.md` R29,
`30_encoding.md` R69), sub-words (R25), and the widening of results to the 128-bit ports (R32);
the byte image the host applies (`20_memory.md` R43 to R45). -/

namespace Sys2Proof.Machine

/-- `A = a[n-1:0]` (R10, R29). -/
def State.opA (s : State) (w : Width) : BitVec (s.width w) := s.ports.a.setWidth (s.width w)

/-- `B = b[n-1:0]` (R10, R29). -/
def State.opB (s : State) (w : Width) : BitVec (s.width w) := s.ports.b.setWidth (s.width w)

/-- `C = c[n-1:0]` (R10, R29). -/
def State.opC (s : State) (w : Width) : BitVec (s.width w) := s.ports.c.setWidth (s.width w)

/-- `K = u(k)` (R10). -/
def State.opK (s : State) : Nat := s.ports.k.toNat

/-- `zext_128` (R7, R32 a). -/
def zext {n : Nat} (v : BitVec n) : Port := v.setWidth 128

/-- `sext_128` (R7, R32 a). -/
def sext {n : Nat} (v : BitVec n) : Port := v.signExtend 128

/-- A natural number on a 128-bit port: a count or a logarithm (R32 b). -/
def natPort (m : Nat) : Port := BitVec.ofNat 128 m

/-- Is the index in range: `i < n/w` (R66)? -/
def indexInRange (n w i : Nat) : Bool := decide (i < n / w)

/-- `SW(x, w, i) = x[(i+1)*w-1 : i*w]` (R25); the same for both byte orders (R44, R45). -/
def subWord {n : Nat} (x : BitVec n) (w i : Nat) : BitVec w := x.extractLsb' (i * w) w

/-- The bits of sub-word `i` of width `w` in a value of `n` bits. -/
def subMask (n w i : Nat) : BitVec n := (BitVec.allOnes w).setWidth n <<< (i * w)

/-- `x` with bits `(i+1)*w-1` down to `i*w` replaced by `v`, every other bit kept (R10, R111). -/
def setSubWord {n : Nat} (x : BitVec n) (w i : Nat) (v : BitVec w) : BitVec n :=
  (x &&& ~~~(subMask n w i)) ||| (v.setWidth n <<< (i * w))

/-- `{ b[n/2-1:0], a[n/2-1:0] }` (R103): element 0 on port `a` lands in the low half. -/
def State.arrayValue (s : State) (w : Width) : BitVec 128 :=
  zext (s.ports.b.setWidth (s.width w / 2) ++ s.ports.a.setWidth (s.width w / 2))

/-- The number whose bit `i` is `f i`, for `i < n`. -/
def bitSum (f : Nat → Bool) : Nat → Nat
  | 0 => 0
  | i + 1 => bitSum f i + (if f i then 2 ^ i else 0)

/-- The `bits n` given bit by bit (R7). -/
def fromBits (n : Nat) (f : Nat → Bool) : BitVec n := BitVec.ofNat n (bitSum f n)

/-- `swap_bytes`: byte `j` of the result is byte `n/8-1-j` of the operand (R210). -/
def byteSwap {n : Nat} (x : BitVec n) : BitVec n :=
  fromBits n fun i => x.getLsbD (8 * (n / 8 - 1 - i / 8) + i % 8)

/-- The byte image `IMG(x)`, index = increasing byte address (R43). The host applies it; no command
does. -/
def byteImage {n : Nat} (e : Endian) (x : BitVec n) : List (BitVec 8) :=
  (List.range (n / 8)).map fun j =>
    match e with
    | .le => x.extractLsb' (8 * j) 8
    | .be => x.extractLsb' (n - 8 - 8 * j) 8

/-- The physical position of logical index `i` among `cnt` sub-words (R44, R45). -/
def physicalPos (e : Endian) (cnt i : Nat) : Nat :=
  match e with
  | .le => i
  | .be => cnt - 1 - i

end Sys2Proof.Machine
end

