-- ==== Sys2Proof/Machine/Flags.lean ====
section
/-! DEFINITION. Every flag computation of CORE. Each arithmetic result is an exact integer first
(`00_scope.md` R8); the carry, the borrow, the overflow flag and the five policies (`43_policy_alu.md`
R150) follow from where it lies. -/

namespace Sys2Proof.Machine

/-- `MAX_n = 2^n - 1` (R7). -/
def maxNat (n : Nat) : Nat := 2 ^ n - 1

/-- `E` is representable at width `n` when `0 <= E <= MAX_n` (R8). -/
def representable (n : Nat) (e : Int) : Bool := decide (0 ≤ e) && decide (e ≤ (maxNat n : Int))

/-- Where an exact result lies against the representable range (R8). -/
inductive Place where
  | below
  | inside
  | above
  deriving DecidableEq, Repr

/-- What the policies need of an exact result `E`: its wrapped form `bv_n(E)` and its place (R8). -/
structure Exact (n : Nat) where
  wrapped : BitVec n
  place   : Place
  deriving DecidableEq, Repr

/-- The place of an exact result (R8). -/
def placeOf (n : Nat) (e : Int) : Place :=
  if e < 0 then .below else if e ≤ (maxNat n : Int) then .inside else .above

/-- An exact result given as an integer (R8). -/
def exactInt (n : Nat) (e : Int) : Exact n where
  wrapped := BitVec.ofInt n e
  place := placeOf n e

/-- The clamped result `bv_n(min(max(E, 0), MAX_n))` (R8). -/
def clamped {n : Nat} (e : Exact n) : BitVec n :=
  match e.place with
  | .below => 0
  | .inside => e.wrapped
  | .above => BitVec.allOnes n

/-- A response with a result and a flag out (R32, R33). -/
def Response.flagged (r : Port) (fo : Bool) : Response :=
  { Response.value r with fo := fo }

/-- A response with a low and a high result (R31, R140). -/
def Response.pair (r r2 : Port) : Response :=
  { Response.value r with r2 := r2 }

/-- The policy table (R150). `none` is an exact result that does not exist, a zero divisor
(R190). -/
def policyAnswer {n : Nat} (p : Policy) (e : Option (Exact n)) : Answer :=
  match e, p with
  | none, .chk => .done Response.absent
  | none, .wrap => .abort .divZero
  | none, .ovf => .abort .divZero
  | none, .unchk => .abort .divZero
  | none, .sat => .abort .divZero
  | some x, .wrap => .done (Response.value (zext x.wrapped))
  | some x, .ovf => .done (Response.flagged (zext x.wrapped) (x.place != .inside))
  | some x, .chk =>
    .done (if x.place = .inside then Response.value (zext x.wrapped) else Response.absent)
  | some x, .unchk =>
    if x.place = .inside then .done (Response.value (zext x.wrapped)) else .abort .overflow
  | some x, .sat => .done (Response.value (zext (clamped x)))

/-- Add with a carry in: the sum mod `2^n` and the carry out (R130). -/
def adcBits {n : Nat} (x y : BitVec n) (cin : Bool) : BitVec n × Bool :=
  let e := x.toNat + y.toNat + cin.toNat
  (BitVec.ofNat n e, decide (e > maxNat n))

/-- Subtract with a borrow in: the difference mod `2^n` and the borrow out (R132). -/
def sbbBits {n : Nat} (x y : BitVec n) (bin : Bool) : BitVec n × Bool :=
  let e : Int := (x.toNat : Int) - (y.toNat : Int) - (bin.toNat : Int)
  (BitVec.ofInt n e, decide (e < 0))

end Sys2Proof.Machine
end

