-- ==== Sys2Proof/Machine/BitUtil.lean ====
section
/-! DEFINITION. Family 4, the rotates, the counts, the byte-order conversions and the power-of-two
queries (`44_bit_utilities.md` R200 to R216). -/

namespace Sys2Proof.Machine

/-- Circular rotation by `k mod n` places towards the top: `{ A[n-1-m:0], A[n-1:n-m] }` (R200). -/
def rotLeft {n : Nat} (x : BitVec n) (k : Nat) : BitVec n :=
  (x <<< (k % n)) ||| (x >>> (n - k % n))

/-- Circular rotation by `k mod n` places towards the bottom: `{ A[m-1:0], A[n-1:m] }` (R201). -/
def rotRight {n : Nat} (x : BitVec n) (k : Nat) : BitVec n :=
  (x >>> (k % n)) ||| (x <<< (n - k % n))

/-- Bit `i` of the result is bit `n-1-i` of the operand (R203). -/
def bitReverse {n : Nat} (x : BitVec n) : BitVec n := fromBits n fun i => x.getLsbD (n - 1 - i)

/-- The number of bits of `x` that equal `b` (R204, R205). -/
def countBits {n : Nat} (b : Bool) (x : BitVec n) : Nat :=
  (List.range n).countP fun i => x.getLsbD i == b

/-- How many bits from bit `n-1` downward equal `b` before the first that does not (R206, R207). -/
def leadingRun {n : Nat} (b : Bool) (x : BitVec n) : Nat :=
  ((List.range n).takeWhile fun j => x.getLsbD (n - 1 - j) == b).length

/-- How many bits from bit 0 upward equal `b` before the first that does not (R208, R209). -/
def trailingRun {n : Nat} (b : Bool) (x : BitVec n) : Nat :=
  ((List.range n).takeWhile fun j => x.getLsbD j == b).length

/-- Between the host's byte order and `target`: nothing to do where they agree, else a byte reversal
(R211 to R214). -/
def toOrder {n : Nat} (host target : Endian) (x : BitVec n) : BitVec n :=
  if host = target then x else byteSwap x

/-- The smallest `2^j` with `2^j >= u(A)`, between 1 and `2^n` (R216). -/
def nextPow2 {n : Nat} (x : BitVec n) : Nat :=
  match (List.range n).find? fun j => decide (x.toNat ≤ 2 ^ j) with
  | some j => 2 ^ j
  | none => 2 ^ n

/-- The answer of NEXTPOW2 (R216): not representable aborts under `strict` and wraps to 0 under
`permissive`. -/
def nextPow2Answer {n : Nat} (mode : Strictness) (x : BitVec n) : Answer :=
  if nextPow2 x ≤ maxNat n then .done (Response.value (natPort (nextPow2 x)))
  else
    match mode with
    | .strict => .abort .pow2Range
    | .permissive => .done (Response.value 0)

/-- ROTL (R200). -/
def execRotl (w : Width) (s : State) : Result :=
  s.answer (.done (Response.value (zext (rotLeft (s.opA w) s.opK))))

/-- ROTR (R201). -/
def execRotr (w : Width) (s : State) : Result :=
  s.answer (.done (Response.value (zext (rotRight (s.opA w) s.opK))))

/-- BREV (R203). -/
def execBrev (w : Width) (s : State) : Result :=
  s.answer (.done (Response.value (zext (bitReverse (s.opA w)))))

/-- CNT1 (R204). -/
def execCnt1 (w : Width) (s : State) : Result :=
  s.answer (.done (Response.value (natPort (countBits true (s.opA w)))))

/-- CNT0 (R205). -/
def execCnt0 (w : Width) (s : State) : Result :=
  s.answer (.done (Response.value (natPort (countBits false (s.opA w)))))

/-- LD1 (R206). -/
def execLd1 (w : Width) (s : State) : Result :=
  s.answer (.done (Response.value (natPort (leadingRun true (s.opA w)))))

/-- LD0 (R207). -/
def execLd0 (w : Width) (s : State) : Result :=
  s.answer (.done (Response.value (natPort (leadingRun false (s.opA w)))))

/-- TR1 (R208). -/
def execTr1 (w : Width) (s : State) : Result :=
  s.answer (.done (Response.value (natPort (trailingRun true (s.opA w)))))

/-- TR0 (R209). -/
def execTr0 (w : Width) (s : State) : Result :=
  s.answer (.done (Response.value (natPort (trailingRun false (s.opA w)))))

/-- BSWAP (R210). -/
def execBswap (w : Width) (s : State) : Result :=
  s.answer (.done (Response.value (zext (byteSwap (s.opA w)))))

/-- TOBE (R211). -/
def execTobe (w : Width) (s : State) : Result :=
  s.answer (.done (Response.value (zext (toOrder s.params.endian .be (s.opA w)))))

/-- TOLE (R212). -/
def execTole (w : Width) (s : State) : Result :=
  s.answer (.done (Response.value (zext (toOrder s.params.endian .le (s.opA w)))))

/-- FROMBE (R213). -/
def execFrombe (w : Width) (s : State) : Result :=
  s.answer (.done (Response.value (zext (toOrder s.params.endian .be (s.opA w)))))

/-- FROMLE (R214). -/
def execFromle (w : Width) (s : State) : Result :=
  s.answer (.done (Response.value (zext (toOrder s.params.endian .le (s.opA w)))))

/-- ISPOW2 (R215): the answer is `fo`; `r` carries 0. -/
def execIspow2 (w : Width) (s : State) : Result :=
  s.answer (.done (Response.flagged 0 (decide (countBits true (s.opA w) = 1))))

/-- NEXTPOW2 (R216). -/
def execNextpow2 (w : Width) (s : State) : Result :=
  s.answer (nextPow2Answer s.params.strict (s.opA w))

end Sys2Proof.Machine
end

