-- ==== Sys2Proof/Machine/CarryChain.lean ====
section
/-! DEFINITION. Family 1, the carry-chain adder/subtractor (`41_carry_chain.md` R130, R132). -/

namespace Sys2Proof.Machine

/-- ADC (R130): `fo` is the carry out. -/
def execAdc (w : Width) (s : State) : Result :=
  let sum := adcBits (s.opA w) (s.opB w) s.ports.cin
  s.answer (.done (Response.flagged (zext sum.1) sum.2))

/-- SBB (R132): `fo` is the borrow out. -/
def execSbb (w : Width) (s : State) : Result :=
  let diff := sbbBits (s.opA w) (s.opB w) s.ports.cin
  s.answer (.done (Response.flagged (zext diff.1) diff.2))

end Sys2Proof.Machine
end

