-- ==== Sys2Proof/Machine/Multiply.lean ====
section
/-! DEFINITION. Family 2, the widening multiplier (`42_multiply.md` R140 to R143), by the
shift-and-add algorithm R141 requires to be reproduced. -/

namespace Sys2Proof.Machine

/-- The number of bits of `x` below bit `m`, up to and including the highest set one. -/
def bitLengthBelow {n : Nat} (x : BitVec n) : Nat → Nat
  | 0 => 0
  | j + 1 => if x.getLsbD j then j + 1 else bitLengthBelow x j

/-- One more than the index of the highest set bit; 0 for the value 0. -/
def bitLength {n : Nat} (x : BitVec n) : Nat := bitLengthBelow x n

/-- One iteration of R141 on the accumulator `(low, high)`: shift the pair left by one, and where
the multiplier's bit is set add the multiplicand into `low`, its carry into `high`. -/
def mulStep {n : Nat} (x : BitVec n) (bit : Bool) (acc : BitVec n × BitVec n) :
    BitVec n × BitVec n :=
  let high := (acc.2 <<< 1) ||| BitVec.ofNat n acc.1.msb.toNat
  let low := acc.1 <<< 1
  if bit then
    let sum := adcBits low x false
    (sum.1, BitVec.ofNat n (high.toNat + sum.2.toNat))
  else (low, high)

/-- The loop of R141 over the bits `j-1` down to 0 of the multiplier `y`. -/
def mulLoop {n : Nat} (x y : BitVec n) : Nat → BitVec n × BitVec n → BitVec n × BitVec n
  | 0, acc => acc
  | j + 1, acc => mulLoop x y j (mulStep x (y.getLsbD j) acc)

/-- `(low, high)` of the product, from the multiplier's highest set bit down (R141). -/
def mulWide {n : Nat} (x y : BitVec n) : BitVec n × BitVec n := mulLoop x y (bitLength y) (0, 0)

/-- The product with a carry limb added, as R143 realises it. -/
def mulCarry {n : Nat} (x y z : BitVec n) : BitVec n × BitVec n :=
  let prod := mulWide x y
  let sum := adcBits prod.1 z false
  (sum.1, BitVec.ofNat n (prod.2.toNat + sum.2.toNat))

/-- MULW (R140): `r` is the low half, `r2` the high half. -/
def execMulw (w : Width) (s : State) : Result :=
  let prod := mulWide (s.opA w) (s.opB w)
  s.answer (.done (Response.pair (zext prod.1) (zext prod.2)))

/-- MULC (R143): the incoming carry is a whole limb, on port `c`. -/
def execMulc (w : Width) (s : State) : Result :=
  let prod := mulCarry (s.opA w) (s.opB w) (s.opC w)
  s.answer (.done (Response.pair (zext prod.1) (zext prod.2)))

end Sys2Proof.Machine
end

