-- ==== Sys2Proof/Machine/LogRoot.lean ====
section
/-! DEFINITION. Family 5, the floor logarithms and the floor square root (`45_log_root.md` R230 to
R233), by the computable forms of R234. -/

namespace Sys2Proof.Machine

/-- The division loop of R234: how often `v` can be divided by the base before it falls below it. -/
def ilogLoop (base : Nat) : Nat → Nat → Nat
  | 0, _ => 0
  | fuel + 1, v => if base ≤ v then ilogLoop base fuel (v / base) + 1 else 0

/-- `floor(log_base(value))` of an `n`-bit value (R230); at most `n-1` rounds (R234). -/
def ilogNat (n base v : Nat) : Nat := ilogLoop base n v

/-- The trial-squaring loop of R234 over the bits `j-1` down to 0 of the root. -/
def isqrtLoop (v : Nat) : Nat → Nat → Nat
  | 0, q => q
  | j + 1, q => isqrtLoop v j (if (q + 2 ^ j) * (q + 2 ^ j) ≤ v then q + 2 ^ j else q)

/-- `floor(sqrt(value))` of an `n`-bit value (R233): the root fits `n/2` bits. -/
def isqrtNat (n v : Nat) : Nat := isqrtLoop v (n / 2) 0

/-- ILOG (R230): a zero value or a base below 2 aborts. -/
def execIlog (w : Width) (s : State) : Result :=
  s.answer
    (if (s.opA w).toNat = 0 ∨ (s.opB w).toNat < 2 then .abort .logDomain
    else .done (Response.value
      (natPort (ilogNat (s.width w) (s.opB w).toNat (s.opA w).toNat))))

/-- ILOG2 (R231): the index of the highest set bit; a zero value aborts. -/
def execIlog2 (w : Width) (s : State) : Result :=
  s.answer
    (if (s.opA w).toNat = 0 then .abort .logDomain
    else .done (Response.value (natPort (bitLength (s.opA w) - 1))))

/-- ILOG10 (R232): a zero value aborts. -/
def execIlog10 (w : Width) (s : State) : Result :=
  s.answer
    (if (s.opA w).toNat = 0 then .abort .logDomain
    else .done (Response.value (natPort (ilogNat (s.width w) 10 (s.opA w).toNat))))

/-- ISQRT (R233): defined for every value. -/
def execIsqrt (w : Width) (s : State) : Result :=
  s.answer (.done (Response.value (natPort (isqrtNat (s.width w) (s.opA w).toNat))))

end Sys2Proof.Machine
end

