-- ==== Sys2Proof/Machine/PolicyAlu.lean ====
section
/-! DEFINITION. Family 3, the fixed-width ALU with overflow policies (`43_policy_alu.md`): the exact
results (R188), each under the policy table (R150), and ABSDIFF (R186). All operands are unsigned. -/

namespace Sys2Proof.Machine

/-- The exact sum (R188). -/
def exactAdd {n : Nat} (x y : BitVec n) : Option (Exact n) :=
  some (exactInt n ((x.toNat : Int) + (y.toNat : Int)))

/-- The exact difference (R188). -/
def exactSub {n : Nat} (x y : BitVec n) : Option (Exact n) :=
  some (exactInt n ((x.toNat : Int) - (y.toNat : Int)))

/-- The exact product (R188). -/
def exactMul {n : Nat} (x y : BitVec n) : Option (Exact n) :=
  some (exactInt n ((x.toNat : Int) * (y.toNat : Int)))

/-- The floor quotient, which a zero divisor does not have (R188, R190). -/
def exactDiv {n : Nat} (x y : BitVec n) : Option (Exact n) :=
  if y.toNat = 0 then none else some (exactInt n ((x.toNat / y.toNat : Nat) : Int))

/-- The remainder `u(A) - u(B) * floor(u(A) / u(B))`, which a zero divisor does not have
(R188, R190). -/
def exactRem {n : Nat} (x y : BitVec n) : Option (Exact n) :=
  if y.toNat = 0 then none
  else some (exactInt n ((x.toNat : Int) - (y.toNat : Int) * ((x.toNat / y.toNat : Nat) : Int)))

/-- The exact negation `-u(A)` (R188). -/
def exactNeg {n : Nat} (x : BitVec n) : Option (Exact n) := some (exactInt n (-(x.toNat : Int)))

/-- Square and multiply over the low bits of the exponent `k`, as many as the fuel says (R189). -/
def powLoop {n : Nat} : Nat → BitVec n → BitVec n → Nat → BitVec n
  | 0, acc, _, _ => acc
  | fuel + 1, acc, base, k =>
    powLoop fuel (if k % 2 = 1 then acc * base else acc) (base * base) (k / 2)

/-- `bv_n(u(A)^K)` for a 32-bit exponent, with `u(A)^0 = 1` (R181, R189). -/
def powWrapped {n : Nat} (x : BitVec n) (k : Nat) : BitVec n := powLoop 32 (BitVec.ofNat n 1) x k

/-- Is `u(A)^K <= MAX_n`? A base of 2 or more with `K >= n` never is (section 8 of
`43_policy_alu.md`), so the power itself is formed for a small exponent alone. -/
def powFits {n : Nat} (x : BitVec n) (k : Nat) : Bool :=
  decide (x.toNat ≤ 1) || (decide (k < n) && decide (x.toNat ^ k ≤ maxNat n))

/-- The exact power (R188), without forming it where it is huge. -/
def exactPow {n : Nat} (x : BitVec n) (k : Nat) : Option (Exact n) :=
  some { wrapped := powWrapped x k, place := if powFits x k then .inside else .above }

/-- `|u(A) - u(B)|` (R186). -/
def absDiff {n : Nat} (x y : BitVec n) : BitVec n :=
  BitVec.ofNat n ((x.toNat : Int) - (y.toNat : Int)).natAbs

/-- ADD.wrap (R151). -/
def execAddWrap (w : Width) (s : State) : Result :=
  s.answer (policyAnswer .wrap (exactAdd (s.opA w) (s.opB w)))

/-- ADD.ovf (R152). -/
def execAddOvf (w : Width) (s : State) : Result :=
  s.answer (policyAnswer .ovf (exactAdd (s.opA w) (s.opB w)))

/-- ADD.chk (R153). -/
def execAddChk (w : Width) (s : State) : Result :=
  s.answer (policyAnswer .chk (exactAdd (s.opA w) (s.opB w)))

/-- ADD.unchk (R154). -/
def execAddUnchk (w : Width) (s : State) : Result :=
  s.answer (policyAnswer .unchk (exactAdd (s.opA w) (s.opB w)))

/-- ADD.sat (R155). -/
def execAddSat (w : Width) (s : State) : Result :=
  s.answer (policyAnswer .sat (exactAdd (s.opA w) (s.opB w)))

/-- SUB.wrap (R156). -/
def execSubWrap (w : Width) (s : State) : Result :=
  s.answer (policyAnswer .wrap (exactSub (s.opA w) (s.opB w)))

/-- SUB.ovf (R157). -/
def execSubOvf (w : Width) (s : State) : Result :=
  s.answer (policyAnswer .ovf (exactSub (s.opA w) (s.opB w)))

/-- SUB.chk (R158). -/
def execSubChk (w : Width) (s : State) : Result :=
  s.answer (policyAnswer .chk (exactSub (s.opA w) (s.opB w)))

/-- SUB.unchk (R159). -/
def execSubUnchk (w : Width) (s : State) : Result :=
  s.answer (policyAnswer .unchk (exactSub (s.opA w) (s.opB w)))

/-- SUB.sat (R160). -/
def execSubSat (w : Width) (s : State) : Result :=
  s.answer (policyAnswer .sat (exactSub (s.opA w) (s.opB w)))

/-- MUL.wrap (R161). -/
def execMulWrap (w : Width) (s : State) : Result :=
  s.answer (policyAnswer .wrap (exactMul (s.opA w) (s.opB w)))

/-- MUL.ovf (R162). -/
def execMulOvf (w : Width) (s : State) : Result :=
  s.answer (policyAnswer .ovf (exactMul (s.opA w) (s.opB w)))

/-- MUL.chk (R163). -/
def execMulChk (w : Width) (s : State) : Result :=
  s.answer (policyAnswer .chk (exactMul (s.opA w) (s.opB w)))

/-- MUL.unchk (R164). -/
def execMulUnchk (w : Width) (s : State) : Result :=
  s.answer (policyAnswer .unchk (exactMul (s.opA w) (s.opB w)))

/-- MUL.sat (R165). -/
def execMulSat (w : Width) (s : State) : Result :=
  s.answer (policyAnswer .sat (exactMul (s.opA w) (s.opB w)))

/-- DIV.wrap (R166). -/
def execDivWrap (w : Width) (s : State) : Result :=
  s.answer (policyAnswer .wrap (exactDiv (s.opA w) (s.opB w)))

/-- DIV.ovf (R167). -/
def execDivOvf (w : Width) (s : State) : Result :=
  s.answer (policyAnswer .ovf (exactDiv (s.opA w) (s.opB w)))

/-- DIV.chk (R168). -/
def execDivChk (w : Width) (s : State) : Result :=
  s.answer (policyAnswer .chk (exactDiv (s.opA w) (s.opB w)))

/-- DIV.unchk (R169). -/
def execDivUnchk (w : Width) (s : State) : Result :=
  s.answer (policyAnswer .unchk (exactDiv (s.opA w) (s.opB w)))

/-- DIV.sat (R170). -/
def execDivSat (w : Width) (s : State) : Result :=
  s.answer (policyAnswer .sat (exactDiv (s.opA w) (s.opB w)))

/-- REM.wrap (R171). -/
def execRemWrap (w : Width) (s : State) : Result :=
  s.answer (policyAnswer .wrap (exactRem (s.opA w) (s.opB w)))

/-- REM.ovf (R172). -/
def execRemOvf (w : Width) (s : State) : Result :=
  s.answer (policyAnswer .ovf (exactRem (s.opA w) (s.opB w)))

/-- REM.chk (R173). -/
def execRemChk (w : Width) (s : State) : Result :=
  s.answer (policyAnswer .chk (exactRem (s.opA w) (s.opB w)))

/-- REM.unchk (R174). -/
def execRemUnchk (w : Width) (s : State) : Result :=
  s.answer (policyAnswer .unchk (exactRem (s.opA w) (s.opB w)))

/-- REM.sat (R175). -/
def execRemSat (w : Width) (s : State) : Result :=
  s.answer (policyAnswer .sat (exactRem (s.opA w) (s.opB w)))

/-- NEG.wrap (R176). -/
def execNegWrap (w : Width) (s : State) : Result :=
  s.answer (policyAnswer .wrap (exactNeg (s.opA w)))

/-- NEG.ovf (R177). -/
def execNegOvf (w : Width) (s : State) : Result :=
  s.answer (policyAnswer .ovf (exactNeg (s.opA w)))

/-- NEG.chk (R178). -/
def execNegChk (w : Width) (s : State) : Result :=
  s.answer (policyAnswer .chk (exactNeg (s.opA w)))

/-- NEG.unchk (R179). -/
def execNegUnchk (w : Width) (s : State) : Result :=
  s.answer (policyAnswer .unchk (exactNeg (s.opA w)))

/-- NEG.sat (R180). -/
def execNegSat (w : Width) (s : State) : Result :=
  s.answer (policyAnswer .sat (exactNeg (s.opA w)))

/-- POW.wrap (R181). -/
def execPowWrap (w : Width) (s : State) : Result :=
  s.answer (policyAnswer .wrap (exactPow (s.opA w) s.opK))

/-- POW.ovf (R182). -/
def execPowOvf (w : Width) (s : State) : Result :=
  s.answer (policyAnswer .ovf (exactPow (s.opA w) s.opK))

/-- POW.chk (R183). -/
def execPowChk (w : Width) (s : State) : Result :=
  s.answer (policyAnswer .chk (exactPow (s.opA w) s.opK))

/-- POW.unchk (R184). -/
def execPowUnchk (w : Width) (s : State) : Result :=
  s.answer (policyAnswer .unchk (exactPow (s.opA w) s.opK))

/-- POW.sat (R185). -/
def execPowSat (w : Width) (s : State) : Result :=
  s.answer (policyAnswer .sat (exactPow (s.opA w) s.opK))

/-- ABSDIFF (R186). -/
def execAbsdiff (w : Width) (s : State) : Result :=
  s.answer (.done (Response.value (zext (absDiff (s.opA w) (s.opB w)))))

end Sys2Proof.Machine
end

