-- ==== Sys2Proof/Machine/Representation.lean ====
section
/-! DEFINITION. Family 0, the overlapping representation and the sub-word accessors
(`40_representation.md` R100 to R114): the only instructions that read or write a value register
(`10_state.md` R26). Decoding has already ensured that the shape exists (R65). -/

namespace Sys2Proof.Machine

/-- The sub-word a format-X instruction names, if its index is in range (R66, R107). -/
def State.subWordAt (s : State) (w : Width) (sw : SubWidth) (idx : BitVec 8) :
    Option (BitVec sw.bits) :=
  if indexInRange (s.width w) sw.bits idx.toNat then
    some (subWord (s.regVal w) sw.bits idx.toNat)
  else none

/-- The state after the sub-word write of a format-X instruction, if its index is in range: exactly
the `w` bits of the sub-word take `b[w-1:0]` (R111). -/
def State.withSubWord (s : State) (w : Width) (sw : SubWidth) (idx : BitVec 8) : Option State :=
  if indexInRange (s.width w) sw.bits idx.toNat then
    some (s.writeReg w
      (zext (setSubWord (s.regVal w) sw.bits idx.toNat (s.ports.b.setWidth sw.bits))))
  else none

/-- An unchecked get: an index out of range aborts with IDX_RANGE (R107, `60_exceptions.md` R242). -/
def State.getUnchecked (s : State) (v : Option Port) : Result :=
  match v with
  | some r => .next (s.setResponse (Response.value r))
  | none => .next (s.takeAbort .idxRange)

/-- A checked get: an index out of range answers absent (R109). -/
def State.getChecked (s : State) (v : Option Port) : Result :=
  match v with
  | some r => .next (s.setResponse (Response.value r))
  | none => .next (s.setResponse Response.absent)

/-- An unchecked set: an index out of range aborts with IDX_RANGE and stores nothing (R111). -/
def State.setUnchecked (s : State) (after : Option State) : Result :=
  match after with
  | some t => .next (t.setResponse Response.done)
  | none => .next (s.takeAbort .idxRange)

/-- A checked set: an index out of range answers `ok = 0` and stores nothing (R113). -/
def State.setChecked (s : State) (after : Option State) : Result :=
  match after with
  | some t => .next (t.setResponse Response.done)
  | none => .next (s.setResponse Response.absent)

/-- ZERO (R100). -/
def execZero (w : Width) (s : State) : Result := s.store w 0

/-- SET.U (R101). -/
def execSetU (w : Width) (s : State) : Result := s.store w s.ports.b

/-- SET.S (R102). -/
def execSetS (w : Width) (s : State) : Result := s.store w s.ports.b

/-- NEWARR.U (R103). -/
def execNewarrU (w : Width) (s : State) : Result := s.store w (s.arrayValue w)

/-- NEWARR.S (R104). -/
def execNewarrS (w : Width) (s : State) : Result := s.store w (s.arrayValue w)

/-- GET.U (R105). -/
def execGetU (w : Width) (s : State) : Result :=
  .next (s.setResponse (Response.value (zext (s.regVal w))))

/-- GET.S (R106). -/
def execGetS (w : Width) (s : State) : Result :=
  .next (s.setResponse (Response.value (sext (s.regVal w))))

/-- GETSW.U (R107). -/
def execGetswU (w : Width) (sw : SubWidth) (idx : BitVec 8) (s : State) : Result :=
  s.getUnchecked ((s.subWordAt w sw idx).map zext)

/-- GETSW.S (R108). -/
def execGetswS (w : Width) (sw : SubWidth) (idx : BitVec 8) (s : State) : Result :=
  s.getUnchecked ((s.subWordAt w sw idx).map sext)

/-- GETSWC.U (R109). -/
def execGetswcU (w : Width) (sw : SubWidth) (idx : BitVec 8) (s : State) : Result :=
  s.getChecked ((s.subWordAt w sw idx).map zext)

/-- GETSWC.S (R110). -/
def execGetswcS (w : Width) (sw : SubWidth) (idx : BitVec 8) (s : State) : Result :=
  s.getChecked ((s.subWordAt w sw idx).map sext)

/-- SETSW.U (R111). -/
def execSetswU (w : Width) (sw : SubWidth) (idx : BitVec 8) (s : State) : Result :=
  s.setUnchecked (s.withSubWord w sw idx)

/-- SETSW.S (R112). -/
def execSetswS (w : Width) (sw : SubWidth) (idx : BitVec 8) (s : State) : Result :=
  s.setUnchecked (s.withSubWord w sw idx)

/-- SETSWC.U (R113). -/
def execSetswcU (w : Width) (sw : SubWidth) (idx : BitVec 8) (s : State) : Result :=
  s.setChecked (s.withSubWord w sw idx)

/-- SETSWC.S (R114). -/
def execSetswcS (w : Width) (sw : SubWidth) (idx : BitVec 8) (s : State) : Result :=
  s.setChecked (s.withSubWord w sw idx)

end Sys2Proof.Machine
end

