-- ==== Sys2Proof/Machine/Dispatch.lean ====
section
/-! DEFINITION. One arm per instruction: its meaning. -/

namespace Sys2Proof.Machine

def exec (i : Instr) (s : State) : Host.Outcome State Fault Refusal :=
  match i with
  | .zero w => Sys2Proof.Machine.execZero w s
  | .setU w => Sys2Proof.Machine.execSetU w s
  | .setS w => Sys2Proof.Machine.execSetS w s
  | .newarrU w => Sys2Proof.Machine.execNewarrU w s
  | .newarrS w => Sys2Proof.Machine.execNewarrS w s
  | .getU w => Sys2Proof.Machine.execGetU w s
  | .getS w => Sys2Proof.Machine.execGetS w s
  | .getswU w sw idx => Sys2Proof.Machine.execGetswU w sw idx s
  | .getswS w sw idx => Sys2Proof.Machine.execGetswS w sw idx s
  | .getswcU w sw idx => Sys2Proof.Machine.execGetswcU w sw idx s
  | .getswcS w sw idx => Sys2Proof.Machine.execGetswcS w sw idx s
  | .setswU w sw idx => Sys2Proof.Machine.execSetswU w sw idx s
  | .setswS w sw idx => Sys2Proof.Machine.execSetswS w sw idx s
  | .setswcU w sw idx => Sys2Proof.Machine.execSetswcU w sw idx s
  | .setswcS w sw idx => Sys2Proof.Machine.execSetswcS w sw idx s
  | .adc w => Sys2Proof.Machine.execAdc w s
  | .sbb w => Sys2Proof.Machine.execSbb w s
  | .mulw w => Sys2Proof.Machine.execMulw w s
  | .mulc w => Sys2Proof.Machine.execMulc w s
  | .addWrap w => Sys2Proof.Machine.execAddWrap w s
  | .addOvf w => Sys2Proof.Machine.execAddOvf w s
  | .addChk w => Sys2Proof.Machine.execAddChk w s
  | .addUnchk w => Sys2Proof.Machine.execAddUnchk w s
  | .addSat w => Sys2Proof.Machine.execAddSat w s
  | .subWrap w => Sys2Proof.Machine.execSubWrap w s
  | .subOvf w => Sys2Proof.Machine.execSubOvf w s
  | .subChk w => Sys2Proof.Machine.execSubChk w s
  | .subUnchk w => Sys2Proof.Machine.execSubUnchk w s
  | .subSat w => Sys2Proof.Machine.execSubSat w s
  | .mulWrap w => Sys2Proof.Machine.execMulWrap w s
  | .mulOvf w => Sys2Proof.Machine.execMulOvf w s
  | .mulChk w => Sys2Proof.Machine.execMulChk w s
  | .mulUnchk w => Sys2Proof.Machine.execMulUnchk w s
  | .mulSat w => Sys2Proof.Machine.execMulSat w s
  | .divWrap w => Sys2Proof.Machine.execDivWrap w s
  | .divOvf w => Sys2Proof.Machine.execDivOvf w s
  | .divChk w => Sys2Proof.Machine.execDivChk w s
  | .divUnchk w => Sys2Proof.Machine.execDivUnchk w s
  | .divSat w => Sys2Proof.Machine.execDivSat w s
  | .remWrap w => Sys2Proof.Machine.execRemWrap w s
  | .remOvf w => Sys2Proof.Machine.execRemOvf w s
  | .remChk w => Sys2Proof.Machine.execRemChk w s
  | .remUnchk w => Sys2Proof.Machine.execRemUnchk w s
  | .remSat w => Sys2Proof.Machine.execRemSat w s
  | .negWrap w => Sys2Proof.Machine.execNegWrap w s
  | .negOvf w => Sys2Proof.Machine.execNegOvf w s
  | .negChk w => Sys2Proof.Machine.execNegChk w s
  | .negUnchk w => Sys2Proof.Machine.execNegUnchk w s
  | .negSat w => Sys2Proof.Machine.execNegSat w s
  | .powWrap w => Sys2Proof.Machine.execPowWrap w s
  | .powOvf w => Sys2Proof.Machine.execPowOvf w s
  | .powChk w => Sys2Proof.Machine.execPowChk w s
  | .powUnchk w => Sys2Proof.Machine.execPowUnchk w s
  | .powSat w => Sys2Proof.Machine.execPowSat w s
  | .absdiff w => Sys2Proof.Machine.execAbsdiff w s
  | .rotl w => Sys2Proof.Machine.execRotl w s
  | .rotr w => Sys2Proof.Machine.execRotr w s
  | .brev w => Sys2Proof.Machine.execBrev w s
  | .cnt1 w => Sys2Proof.Machine.execCnt1 w s
  | .cnt0 w => Sys2Proof.Machine.execCnt0 w s
  | .ld1 w => Sys2Proof.Machine.execLd1 w s
  | .ld0 w => Sys2Proof.Machine.execLd0 w s
  | .tr1 w => Sys2Proof.Machine.execTr1 w s
  | .tr0 w => Sys2Proof.Machine.execTr0 w s
  | .bswap w => Sys2Proof.Machine.execBswap w s
  | .tobe w => Sys2Proof.Machine.execTobe w s
  | .tole w => Sys2Proof.Machine.execTole w s
  | .frombe w => Sys2Proof.Machine.execFrombe w s
  | .fromle w => Sys2Proof.Machine.execFromle w s
  | .ispow2 w => Sys2Proof.Machine.execIspow2 w s
  | .nextpow2 w => Sys2Proof.Machine.execNextpow2 w s
  | .ilog w => Sys2Proof.Machine.execIlog w s
  | .ilog2 w => Sys2Proof.Machine.execIlog2 w s
  | .ilog10 w => Sys2Proof.Machine.execIlog10 w s
  | .isqrt w => Sys2Proof.Machine.execIsqrt w s

end Sys2Proof.Machine
end

