-- ==== Sys2Proof/Machine/Step.lean ====
section
/-! DEFINITION. One step: the host's next event. A command is decoded and executed, an illegal one
aborts with ILLEGAL (`60_exceptions.md` R241), a reset event resets (`70_reset_and_hazards.md` R270),
and with no event nothing happens (R250). -/

namespace Sys2Proof.Machine

/-- Running the command on the ports (R11): decode it, and execute it or abort with ILLEGAL before
any port or register is read (R241). -/
def runCommand (s : State) : Result :=
  match decode s.params.pw s.ports.cmd with
  | .ok i => exec i s
  | .error _ => .next (s.takeAbort .illegal)

/-- One step of the machine. Every change is caused by an event of the host, taken in order
(R30, R49, R250). -/
def step (s : State) : Host.Outcome State Fault Refusal :=
  match s.pending with
  | [] => .next s
  | .command c :: rest => runCommand (s.latch c rest)
  | .reset :: rest => .next (s.applyReset rest)

/-- `s` with the word `w` (its low `nbits` bits, the rest zero) lined up as the very next command, on
the operand ports as they stand. -/
def State.withFetchWord (s : State) (nbits w : Nat) : State :=
  s.presentWord (BitVec.ofNat 32 (w % 2 ^ nbits))

end Sys2Proof.Machine
end

