-- ==== Sys2Proof/Safety.lean ====
section
/-! DEFINITION. The terms the statements use: what a good state is, what a clean run is, the answers
the spec's rules name, the tables of the spec about whole families (who writes a register, which
ports are read, which cause can be raised), and the host's own loops over the machine's step
(`41_carry_chain.md` R134, `42_multiply.md` R145, `40_representation.md` R115). -/

namespace Sys2Proof.Machine

/-- `u(p[n-1:0])`: the unsigned value of the low `n` bits of a port (R7, R10). -/
def low (p : Port) (n : Nat) : Nat := p.toNat % 2 ^ n

/-- A number on a 128-bit port. -/
def portOf (m : Nat) : Port := BitVec.ofNat 128 m

/-- `s(v)` of an `n`-bit value given as its unsigned value (R7). -/
def signedOf (n m : Nat) : Int := if m < 2 ^ (n - 1) then (m : Int) else (m : Int) - 2 ^ n

/-- The unsigned value of a value register's content. -/
def regNat (s : State) : Width → Nat
  | .w16 => s.v16.toNat
  | .w32 => s.v32.toNat
  | .w64 => s.v64.toNat
  | .w128 => s.v128.toNat
  | .wp => s.vp.toNat % 2 ^ s.params.pw.bits

/-- `s` with one value register holding the number `m` (mod `2^n`), all else as it is. -/
def withReg (s : State) (w : Width) (m : Nat) : State :=
  match w with
  | .w16 => { s with v16 := BitVec.ofNat 16 m }
  | .w32 => { s with v32 := BitVec.ofNat 32 m }
  | .w64 => { s with v64 := BitVec.ofNat 64 m }
  | .w128 => { s with v128 := BitVec.ofNat 128 m }
  | .wp => { s with vp := BitVec.ofNat 128 (m % 2 ^ s.params.pw.bits) }

/-- `s` after a command that completed without abort with these response fields (R31, R32 e), all
else as it is. -/
def completed (s : State) (r r2 : Port) (fo ok : Bool) : State :=
  { s with
    response := some { r := r, r2 := r2, fo := fo, ok := ok, abort := false, cause := 0 } }

/-- The codes of R240. -/
def abortCode : Cause → Nat
  | .illegal => 0
  | .idxRange => 1
  | .divZero => 2
  | .overflow => 3
  | .logDomain => 4
  | .pow2Range => 5

/-- The answer `x` is the abort of state `s` with this cause (R249): no value register and nothing else
changes but the response, which is the abort response, and the run's abort record, which the
statement on `runFault` pins down (log entry 6). -/
def AbortsWith (x : Result) (s : State) (c : Cause) : Prop :=
  ∃ f, x = .next { s with
    response := some { r := 0, r2 := 0, fo := false, ok := false, abort := true,
                       cause := BitVec.ofNat 4 (abortCode c) }
    runFault := f }

/-- What a well-formed response is: nothing but zeros beside `ok = 0`; an abort has `ok = 0` and one
of the six causes; without an abort the cause is 0 (R32, R240, R249). -/
def Response.good (x : Response) : Bool :=
  (x.ok || (x.r == 0 && x.r2 == 0 && !x.fo)) &&
  (if x.abort then !x.ok && decide (x.cause.toNat ≤ 5) else x.cause == 0)

/-- THE INVARIANT: VP holds no bit above its PW bits (R21), the response is well formed, and an
abort response is on record in `runFault`, the model's own field (R249; log entry 6). -/
def State.good (s : State) : Bool :=
  decide (s.vp.toNat < 2 ^ s.params.pw.bits) &&
  match s.response with
  | none => true
  | some x => x.good && (!x.abort || s.runFault.isSome)

/-- A clean run: no command has aborted in it. R249 advises to take this as a premise of a
claim about a run. -/
def State.clean (s : State) : Bool := s.runFault.isNone

/-- The width WSEL selects. -/
def selOf : Instr → Width
  | .zero w => w
  | .setU w => w
  | .setS w => w
  | .newarrU w => w
  | .newarrS w => w
  | .getU w => w
  | .getS w => w
  | .getswU w _ _ => w
  | .getswS w _ _ => w
  | .getswcU w _ _ => w
  | .getswcS w _ _ => w
  | .setswU w _ _ => w
  | .setswS w _ _ => w
  | .setswcU w _ _ => w
  | .setswcS w _ _ => w
  | .adc w => w
  | .sbb w => w
  | .mulw w => w
  | .mulc w => w
  | .addWrap w => w
  | .addOvf w => w
  | .addChk w => w
  | .addUnchk w => w
  | .addSat w => w
  | .subWrap w => w
  | .subOvf w => w
  | .subChk w => w
  | .subUnchk w => w
  | .subSat w => w
  | .mulWrap w => w
  | .mulOvf w => w
  | .mulChk w => w
  | .mulUnchk w => w
  | .mulSat w => w
  | .divWrap w => w
  | .divOvf w => w
  | .divChk w => w
  | .divUnchk w => w
  | .divSat w => w
  | .remWrap w => w
  | .remOvf w => w
  | .remChk w => w
  | .remUnchk w => w
  | .remSat w => w
  | .negWrap w => w
  | .negOvf w => w
  | .negChk w => w
  | .negUnchk w => w
  | .negSat w => w
  | .powWrap w => w
  | .powOvf w => w
  | .powChk w => w
  | .powUnchk w => w
  | .powSat w => w
  | .absdiff w => w
  | .rotl w => w
  | .rotr w => w
  | .brev w => w
  | .cnt1 w => w
  | .cnt0 w => w
  | .ld1 w => w
  | .ld0 w => w
  | .tr1 w => w
  | .tr0 w => w
  | .bswap w => w
  | .tobe w => w
  | .tole w => w
  | .frombe w => w
  | .fromle w => w
  | .ispow2 w => w
  | .nextpow2 w => w
  | .ilog w => w
  | .ilog2 w => w
  | .ilog10 w => w
  | .isqrt w => w

/-- The family, OPC[7:4] (R61). -/
def familyOf : Instr → Nat
  | .zero _ => 0
  | .setU _ => 0
  | .setS _ => 0
  | .newarrU _ => 0
  | .newarrS _ => 0
  | .getU _ => 0
  | .getS _ => 0
  | .getswU _ _ _ => 0
  | .getswS _ _ _ => 0
  | .getswcU _ _ _ => 0
  | .getswcS _ _ _ => 0
  | .setswU _ _ _ => 0
  | .setswS _ _ _ => 0
  | .setswcU _ _ _ => 0
  | .setswcS _ _ _ => 0
  | .adc _ => 1
  | .sbb _ => 1
  | .mulw _ => 2
  | .mulc _ => 2
  | .addWrap _ => 3
  | .addOvf _ => 3
  | .addChk _ => 3
  | .addUnchk _ => 3
  | .addSat _ => 3
  | .subWrap _ => 3
  | .subOvf _ => 3
  | .subChk _ => 3
  | .subUnchk _ => 3
  | .subSat _ => 3
  | .mulWrap _ => 3
  | .mulOvf _ => 3
  | .mulChk _ => 3
  | .mulUnchk _ => 3
  | .mulSat _ => 3
  | .divWrap _ => 3
  | .divOvf _ => 3
  | .divChk _ => 3
  | .divUnchk _ => 3
  | .divSat _ => 3
  | .remWrap _ => 3
  | .remOvf _ => 3
  | .remChk _ => 3
  | .remUnchk _ => 3
  | .remSat _ => 3
  | .negWrap _ => 3
  | .negOvf _ => 3
  | .negChk _ => 3
  | .negUnchk _ => 3
  | .negSat _ => 3
  | .powWrap _ => 3
  | .powOvf _ => 3
  | .powChk _ => 3
  | .powUnchk _ => 3
  | .powSat _ => 3
  | .absdiff _ => 3
  | .rotl _ => 4
  | .rotr _ => 4
  | .brev _ => 4
  | .cnt1 _ => 4
  | .cnt0 _ => 4
  | .ld1 _ => 4
  | .ld0 _ => 4
  | .tr1 _ => 4
  | .tr0 _ => 4
  | .bswap _ => 4
  | .tobe _ => 4
  | .tole _ => 4
  | .frombe _ => 4
  | .fromle _ => 4
  | .ispow2 _ => 4
  | .nextpow2 _ => 4
  | .ilog _ => 5
  | .ilog2 _ => 5
  | .ilog10 _ => 5
  | .isqrt _ => 5

/-- The instructions that write a value register (R26). -/
def writesReg : Instr → Bool
  | .zero _ => true
  | .setU _ => true
  | .setS _ => true
  | .newarrU _ => true
  | .newarrS _ => true
  | .getU _ => false
  | .getS _ => false
  | .getswU _ _ _ => false
  | .getswS _ _ _ => false
  | .getswcU _ _ _ => false
  | .getswcS _ _ _ => false
  | .setswU _ _ _ => true
  | .setswS _ _ _ => true
  | .setswcU _ _ _ => true
  | .setswcS _ _ _ => true
  | .adc _ => false
  | .sbb _ => false
  | .mulw _ => false
  | .mulc _ => false
  | .addWrap _ => false
  | .addOvf _ => false
  | .addChk _ => false
  | .addUnchk _ => false
  | .addSat _ => false
  | .subWrap _ => false
  | .subOvf _ => false
  | .subChk _ => false
  | .subUnchk _ => false
  | .subSat _ => false
  | .mulWrap _ => false
  | .mulOvf _ => false
  | .mulChk _ => false
  | .mulUnchk _ => false
  | .mulSat _ => false
  | .divWrap _ => false
  | .divOvf _ => false
  | .divChk _ => false
  | .divUnchk _ => false
  | .divSat _ => false
  | .remWrap _ => false
  | .remOvf _ => false
  | .remChk _ => false
  | .remUnchk _ => false
  | .remSat _ => false
  | .negWrap _ => false
  | .negOvf _ => false
  | .negChk _ => false
  | .negUnchk _ => false
  | .negSat _ => false
  | .powWrap _ => false
  | .powOvf _ => false
  | .powChk _ => false
  | .powUnchk _ => false
  | .powSat _ => false
  | .absdiff _ => false
  | .rotl _ => false
  | .rotr _ => false
  | .brev _ => false
  | .cnt1 _ => false
  | .cnt0 _ => false
  | .ld1 _ => false
  | .ld0 _ => false
  | .tr1 _ => false
  | .tr0 _ => false
  | .bswap _ => false
  | .tobe _ => false
  | .tole _ => false
  | .frombe _ => false
  | .fromle _ => false
  | .ispow2 _ => false
  | .nextpow2 _ => false
  | .ilog _ => false
  | .ilog2 _ => false
  | .ilog10 _ => false
  | .isqrt _ => false

/-- Which operand ports an instruction reads (R68). -/
structure PortUse where
  a   : Bool
  b   : Bool
  c   : Bool
  cin : Bool
  k   : Bool
  deriving DecidableEq, Repr

/-- Reading no port (R68). -/
def portsNone : PortUse where
  a := false
  b := false
  c := false
  cin := false
  k := false

/-- Reading b (R68). -/
def portsB : PortUse where
  a := false
  b := true
  c := false
  cin := false
  k := false

/-- Reading a, b (R68). -/
def portsAB : PortUse where
  a := true
  b := true
  c := false
  cin := false
  k := false

/-- Reading a, b, cin (R68). -/
def portsABCin : PortUse where
  a := true
  b := true
  c := false
  cin := true
  k := false

/-- Reading a, b, c (R68). -/
def portsABC : PortUse where
  a := true
  b := true
  c := true
  cin := false
  k := false

/-- Reading a (R68). -/
def portsA : PortUse where
  a := true
  b := false
  c := false
  cin := false
  k := false

/-- Reading a, k (R68). -/
def portsAK : PortUse where
  a := true
  b := false
  c := false
  cin := false
  k := true

/-- The "ports read" column of R68. -/
def portUseOf : Instr → PortUse
  | .zero _ => portsNone
  | .setU _ => portsB
  | .setS _ => portsB
  | .newarrU _ => portsAB
  | .newarrS _ => portsAB
  | .getU _ => portsNone
  | .getS _ => portsNone
  | .getswU _ _ _ => portsNone
  | .getswS _ _ _ => portsNone
  | .getswcU _ _ _ => portsNone
  | .getswcS _ _ _ => portsNone
  | .setswU _ _ _ => portsB
  | .setswS _ _ _ => portsB
  | .setswcU _ _ _ => portsB
  | .setswcS _ _ _ => portsB
  | .adc _ => portsABCin
  | .sbb _ => portsABCin
  | .mulw _ => portsAB
  | .mulc _ => portsABC
  | .addWrap _ => portsAB
  | .addOvf _ => portsAB
  | .addChk _ => portsAB
  | .addUnchk _ => portsAB
  | .addSat _ => portsAB
  | .subWrap _ => portsAB
  | .subOvf _ => portsAB
  | .subChk _ => portsAB
  | .subUnchk _ => portsAB
  | .subSat _ => portsAB
  | .mulWrap _ => portsAB
  | .mulOvf _ => portsAB
  | .mulChk _ => portsAB
  | .mulUnchk _ => portsAB
  | .mulSat _ => portsAB
  | .divWrap _ => portsAB
  | .divOvf _ => portsAB
  | .divChk _ => portsAB
  | .divUnchk _ => portsAB
  | .divSat _ => portsAB
  | .remWrap _ => portsAB
  | .remOvf _ => portsAB
  | .remChk _ => portsAB
  | .remUnchk _ => portsAB
  | .remSat _ => portsAB
  | .negWrap _ => portsA
  | .negOvf _ => portsA
  | .negChk _ => portsA
  | .negUnchk _ => portsA
  | .negSat _ => portsA
  | .powWrap _ => portsAK
  | .powOvf _ => portsAK
  | .powChk _ => portsAK
  | .powUnchk _ => portsAK
  | .powSat _ => portsAK
  | .absdiff _ => portsAB
  | .rotl _ => portsAK
  | .rotr _ => portsAK
  | .brev _ => portsA
  | .cnt1 _ => portsA
  | .cnt0 _ => portsA
  | .ld1 _ => portsA
  | .ld0 _ => portsA
  | .tr1 _ => portsA
  | .tr0 _ => portsA
  | .bswap _ => portsA
  | .tobe _ => portsA
  | .tole _ => portsA
  | .frombe _ => portsA
  | .fromle _ => portsA
  | .ispow2 _ => portsA
  | .nextpow2 _ => portsA
  | .ilog _ => portsAB
  | .ilog2 _ => portsA
  | .ilog10 _ => portsA
  | .isqrt _ => portsA

/-- How many low bits of a data port an instruction reads: `n`, or `n/2` for NEWARR (R103), or `w`
for a sub-word setter (R111). -/
def operandBitsOf (pw : PtrWidth) : Instr → Nat
  | .zero w => w.bits pw
  | .setU w => w.bits pw
  | .setS w => w.bits pw
  | .newarrU w => w.bits pw / 2
  | .newarrS w => w.bits pw / 2
  | .getU w => w.bits pw
  | .getS w => w.bits pw
  | .getswU w _ _ => w.bits pw
  | .getswS w _ _ => w.bits pw
  | .getswcU w _ _ => w.bits pw
  | .getswcS w _ _ => w.bits pw
  | .setswU _ sw _ => sw.bits
  | .setswS _ sw _ => sw.bits
  | .setswcU _ sw _ => sw.bits
  | .setswcS _ sw _ => sw.bits
  | .adc w => w.bits pw
  | .sbb w => w.bits pw
  | .mulw w => w.bits pw
  | .mulc w => w.bits pw
  | .addWrap w => w.bits pw
  | .addOvf w => w.bits pw
  | .addChk w => w.bits pw
  | .addUnchk w => w.bits pw
  | .addSat w => w.bits pw
  | .subWrap w => w.bits pw
  | .subOvf w => w.bits pw
  | .subChk w => w.bits pw
  | .subUnchk w => w.bits pw
  | .subSat w => w.bits pw
  | .mulWrap w => w.bits pw
  | .mulOvf w => w.bits pw
  | .mulChk w => w.bits pw
  | .mulUnchk w => w.bits pw
  | .mulSat w => w.bits pw
  | .divWrap w => w.bits pw
  | .divOvf w => w.bits pw
  | .divChk w => w.bits pw
  | .divUnchk w => w.bits pw
  | .divSat w => w.bits pw
  | .remWrap w => w.bits pw
  | .remOvf w => w.bits pw
  | .remChk w => w.bits pw
  | .remUnchk w => w.bits pw
  | .remSat w => w.bits pw
  | .negWrap w => w.bits pw
  | .negOvf w => w.bits pw
  | .negChk w => w.bits pw
  | .negUnchk w => w.bits pw
  | .negSat w => w.bits pw
  | .powWrap w => w.bits pw
  | .powOvf w => w.bits pw
  | .powChk w => w.bits pw
  | .powUnchk w => w.bits pw
  | .powSat w => w.bits pw
  | .absdiff w => w.bits pw
  | .rotl w => w.bits pw
  | .rotr w => w.bits pw
  | .brev w => w.bits pw
  | .cnt1 w => w.bits pw
  | .cnt0 w => w.bits pw
  | .ld1 w => w.bits pw
  | .ld0 w => w.bits pw
  | .tr1 w => w.bits pw
  | .tr0 w => w.bits pw
  | .bswap w => w.bits pw
  | .tobe w => w.bits pw
  | .tole w => w.bits pw
  | .frombe w => w.bits pw
  | .fromle w => w.bits pw
  | .ispow2 w => w.bits pw
  | .nextpow2 w => w.bits pw
  | .ilog w => w.bits pw
  | .ilog2 w => w.bits pw
  | .ilog10 w => w.bits pw
  | .isqrt w => w.bits pw

/-- Two commands that agree on every bit instruction `i` reads (R29). -/
def SameOperands (pw : PtrWidth) (i : Instr) (p q : Command) : Prop :=
  ((portUseOf i).a = true → low p.a (operandBitsOf pw i) = low q.a (operandBitsOf pw i)) ∧
  ((portUseOf i).b = true → low p.b (operandBitsOf pw i) = low q.b (operandBitsOf pw i)) ∧
  ((portUseOf i).c = true → low p.c (operandBitsOf pw i) = low q.c (operandBitsOf pw i)) ∧
  ((portUseOf i).cin = true → p.cin = q.cin) ∧
  ((portUseOf i).k = true → p.k = q.k)

/-- OVERFLOW where the condition holds (R244). -/
def overflowIf (c : Prop) [Decidable c] : Option Cause := if c then some .overflow else none

/-- The abort a decoded instruction takes in this state, if any: the table of R240 with the
conditions of R242 to R246. -/
def abortCause (s : State) : Instr → Option Cause
  | .zero _ => none
  | .setU _ => none
  | .setS _ => none
  | .newarrU _ => none
  | .newarrS _ => none
  | .getU _ => none
  | .getS _ => none
  | .getswU w sw idx => if idx.toNat < s.width w / sw.bits then none else some .idxRange
  | .getswS w sw idx => if idx.toNat < s.width w / sw.bits then none else some .idxRange
  | .getswcU _ _ _ => none
  | .getswcS _ _ _ => none
  | .setswU w sw idx => if idx.toNat < s.width w / sw.bits then none else some .idxRange
  | .setswS w sw idx => if idx.toNat < s.width w / sw.bits then none else some .idxRange
  | .setswcU _ _ _ => none
  | .setswcS _ _ _ => none
  | .adc _ => none
  | .sbb _ => none
  | .mulw _ => none
  | .mulc _ => none
  | .addWrap _ => none
  | .addOvf _ => none
  | .addChk _ => none
  | .addUnchk w => overflowIf (low s.ports.a (s.width w) + low s.ports.b (s.width w) > 2 ^ s.width w - 1)
  | .addSat _ => none
  | .subWrap _ => none
  | .subOvf _ => none
  | .subChk _ => none
  | .subUnchk w => overflowIf (low s.ports.a (s.width w) < low s.ports.b (s.width w))
  | .subSat _ => none
  | .mulWrap _ => none
  | .mulOvf _ => none
  | .mulChk _ => none
  | .mulUnchk w => overflowIf (low s.ports.a (s.width w) * low s.ports.b (s.width w) > 2 ^ s.width w - 1)
  | .mulSat _ => none
  | .divWrap w => if low s.ports.b (s.width w) = 0 then some .divZero else none
  | .divOvf w => if low s.ports.b (s.width w) = 0 then some .divZero else none
  | .divChk _ => none
  | .divUnchk w => if low s.ports.b (s.width w) = 0 then some .divZero else none
  | .divSat w => if low s.ports.b (s.width w) = 0 then some .divZero else none
  | .remWrap w => if low s.ports.b (s.width w) = 0 then some .divZero else none
  | .remOvf w => if low s.ports.b (s.width w) = 0 then some .divZero else none
  | .remChk _ => none
  | .remUnchk w => if low s.ports.b (s.width w) = 0 then some .divZero else none
  | .remSat w => if low s.ports.b (s.width w) = 0 then some .divZero else none
  | .negWrap _ => none
  | .negOvf _ => none
  | .negChk _ => none
  | .negUnchk w => overflowIf (low s.ports.a (s.width w) ≠ 0)
  | .negSat _ => none
  | .powWrap _ => none
  | .powOvf _ => none
  | .powChk _ => none
  | .powUnchk w => overflowIf (low s.ports.a (s.width w) ^ s.ports.k.toNat > 2 ^ s.width w - 1)
  | .powSat _ => none
  | .absdiff _ => none
  | .rotl _ => none
  | .rotr _ => none
  | .brev _ => none
  | .cnt1 _ => none
  | .cnt0 _ => none
  | .ld1 _ => none
  | .ld0 _ => none
  | .tr1 _ => none
  | .tr0 _ => none
  | .bswap _ => none
  | .tobe _ => none
  | .tole _ => none
  | .frombe _ => none
  | .fromle _ => none
  | .ispow2 _ => none
  | .nextpow2 w =>
    if s.params.strict = .strict ∧ low s.ports.a (s.width w) > 2 ^ (s.width w - 1)
    then some .pow2Range else none
  | .ilog w => if low s.ports.a (s.width w) = 0 ∨ low s.ports.b (s.width w) < 2 then some .logDomain else none
  | .ilog2 w => if low s.ports.a (s.width w) = 0 then some .logDomain else none
  | .ilog10 w => if low s.ports.a (s.width w) = 0 then some .logDomain else none
  | .isqrt _ => none

/-- The seven operations of R150. -/
inductive AluOp where
  | add
  | sub
  | mul
  | div
  | rem
  | neg
  | pow
  deriving DecidableEq, Repr

/-- The instruction of an operation under a policy (R68). -/
def aluInstr (op : AluOp) (p : Policy) (w : Width) : Instr :=
  match op, p with
  | .add, .wrap => .addWrap w
  | .add, .ovf => .addOvf w
  | .add, .chk => .addChk w
  | .add, .unchk => .addUnchk w
  | .add, .sat => .addSat w
  | .sub, .wrap => .subWrap w
  | .sub, .ovf => .subOvf w
  | .sub, .chk => .subChk w
  | .sub, .unchk => .subUnchk w
  | .sub, .sat => .subSat w
  | .mul, .wrap => .mulWrap w
  | .mul, .ovf => .mulOvf w
  | .mul, .chk => .mulChk w
  | .mul, .unchk => .mulUnchk w
  | .mul, .sat => .mulSat w
  | .div, .wrap => .divWrap w
  | .div, .ovf => .divOvf w
  | .div, .chk => .divChk w
  | .div, .unchk => .divUnchk w
  | .div, .sat => .divSat w
  | .rem, .wrap => .remWrap w
  | .rem, .ovf => .remOvf w
  | .rem, .chk => .remChk w
  | .rem, .unchk => .remUnchk w
  | .rem, .sat => .remSat w
  | .neg, .wrap => .negWrap w
  | .neg, .ovf => .negOvf w
  | .neg, .chk => .negChk w
  | .neg, .unchk => .negUnchk w
  | .neg, .sat => .negSat w
  | .pow, .wrap => .powWrap w
  | .pow, .ovf => .powOvf w
  | .pow, .chk => .powChk w
  | .pow, .unchk => .powUnchk w
  | .pow, .sat => .powSat w

/-- The primary result of a command that completed. An aborted operation and an absent answer of a
checked form have none, as R249 b advises (U14): the zero that port r carries then is no result.
DESIGN CHOICE, safe: D17 leaves it open whether a model has a value there; the response keeps the
plain port, and this reading of it is an option (log entry 10). -/
def resultOf (x : Result) : Option Port :=
  match x with
  | .next t => t.response.bind fun resp => if resp.ok then some resp.r else none
  | .fault _ => none
  | .refused _ => none

/-- The flag out of a command that did not abort; an aborted command has none (R249 b, U14).
DESIGN CHOICE, safe (log entry 10). -/
def flagOf (x : Result) : Option Bool :=
  match x with
  | .next t => t.response.bind fun resp => if resp.abort then none else some resp.fo
  | .fault _ => none
  | .refused _ => none

/-- `s` with the host driving these operands on `a` and `b`. -/
def State.drive (s : State) (a b : Port) : State :=
  { s with ports := { s.ports with a := a, b := b } }

/-- The number an ordered limb array stands for, least significant limb first (R134). -/
def limbValue (n : Nat) : List Port → Nat
  | [] => 0
  | x :: xs => low x n + 2 ^ n * limbValue n xs

/-- The host presents one command and reads the response, the plain ports of an abort included
(R11, R30; log entry 10). -/
def hostCommand (s : State) (i : Instr) (a b c : Port) (cin : Bool) : Option (State × Response) :=
  let cmd : Command := { cmd := encode i, a := a, b := b, c := c, cin := cin, k := 0 }
  match step { s with pending := [.command cmd] } with
  | .next t => t.response.map fun resp => (t, resp)
  | .fault _ => none
  | .refused _ => none

/-- The host's loop of R134: one command per limb pair, each `fo` copied to the next `cin`. -/
def hostChain (i : Instr) : List (Port × Port) → Bool → State → Option (List Port × Bool)
  | [], cy, _ => some ([], cy)
  | (x, y) :: rest, cy, s =>
    match hostCommand s i x y 0 cy with
    | none => none
    | some (t, resp) => (hostChain i rest resp.fo t).map fun q => (resp.r :: q.1, q.2)

/-- The host's loop of R145: one row of a schoolbook multiplication, each `r2` copied to the next
`c`, the last one becoming the top limb. -/
def hostMulRow (w : Width) (m : Port) : List Port → Port → State → Option (List Port)
  | [], h, _ => some [h]
  | x :: rest, h, s =>
    match hostCommand s (.mulc w) x m h false with
    | none => none
    | some (t, resp) => (hostMulRow w m rest resp.r2 t).map fun q => resp.r :: q

/-- The host reads sub-word `i` by GETSW.U (R115). -/
def readElement (s : State) (w : Width) (sw : SubWidth) (i : Nat) : Option Port :=
  match exec (.getswU w sw (BitVec.ofNat 8 i)) s with
  | .next t => t.response.bind fun resp => if resp.ok then some resp.r else none
  | .fault _ => none
  | .refused _ => none

/-- The host writes sub-word `i` by SETSW.U (R115). -/
def writeElement (s : State) (w : Width) (sw : SubWidth) (i : Nat) (v : Port) : Option State :=
  match exec (.setswU w sw (BitVec.ofNat 8 i)) (s.drive s.ports.a v) with
  | .next t => t.response.bind fun resp => if resp.ok then some t else none
  | .fault _ => none
  | .refused _ => none

/-- The host writes the sub-words from index `i` upward (R115). -/
def writeElements (w : Width) (sw : SubWidth) : List Port → Nat → State → Option State
  | [], _, s => some s
  | v :: vs, i, s =>
    match writeElement s w sw i v with
    | none => none
    | some t => writeElements w sw vs (i + 1) t

end Sys2Proof.Machine
end

