-- ==== Sys2Proof/Certificates/Slice0/Obligations.lean ====
section
/-! DEFINITION. The statements for the provers, from the spec's numbered rules. Helpers first:
illegal words as R70 spells them, the list of R255, and the step-wise power of R189. -/

namespace Sys2Proof.Machine

/-- The opcodes of format N (R68). -/
def opcodesN : List Nat :=
  [0x00, 0x10, 0x11, 0x20, 0x21, 0x37] ++
  [0x40, 0x41, 0x42, 0x43, 0x44, 0x45, 0x46, 0x47, 0x48, 0x49] ++
  [0x4A, 0x4B, 0x4C, 0x4D, 0x4E, 0x4F, 0x50, 0x51, 0x52, 0x53]

/-- The opcodes of format V (R68). -/
def opcodesV : List Nat := [0x01, 0x02, 0x03]

/-- The opcodes of format X (R68). -/
def opcodesX : List Nat := [0x04, 0x05, 0x06, 0x07]

/-- The opcodes of format P (R68). -/
def opcodesP : List Nat := [0x30, 0x31, 0x32, 0x33, 0x34, 0x35, 0x36]

/-- Field `hi:lo` of a command word as a number (R60). -/
def fieldNat (word : CmdWord) (lo width : Nat) : Nat := word.toNat / 2 ^ lo % 2 ^ width

/-- The width WSEL names, where it names one (R62). -/
def selBits (pw : PtrWidth) (wsel : Nat) : Nat := [16, 32, 64, 128, pw.bits].getD wsel 0

/-- A word is illegal when one of the six items of R70 holds: RSV, WSEL, OPC, an unused field by
format (POL outside P; S outside V and X; SH or IDX outside X), POL in format P, the shape in
format X. -/
def illegalWord (pw : PtrWidth) (word : CmdWord) : Prop :=
  let opc := fieldNat word 0 8
  let wsel := fieldNat word 8 3
  let pol := fieldNat word 11 3
  let s := fieldNat word 14 1
  let sh := fieldNat word 15 2
  let idx := fieldNat word 17 8
  let rsv := fieldNat word 25 7
  rsv ≠ 0 ∨ 5 ≤ wsel ∨ opc ∉ opcodesN ++ opcodesV ++ opcodesX ++ opcodesP ∨
  (pol ≠ 0 ∧ opc ∉ opcodesP) ∨ (s ≠ 0 ∧ opc ∉ opcodesV ++ opcodesX) ∨
  ((sh ≠ 0 ∨ idx ≠ 0) ∧ opc ∉ opcodesX) ∨
  (opc ∈ opcodesP ∧ 5 ≤ pol) ∨ (opc ∈ opcodesX ∧ selBits pw wsel / 2 < 8 * 2 ^ sh)

/-- The commands R255 lists, NEXTPOW2 for the permissive setting alone. -/
def neverAborts (mode : Strictness) : Instr → Bool
  | .zero _ => true
  | .setU _ => true
  | .setS _ => true
  | .newarrU _ => true
  | .newarrS _ => true
  | .getU _ => true
  | .getS _ => true
  | .getswU _ _ _ => false
  | .getswS _ _ _ => false
  | .getswcU _ _ _ => true
  | .getswcS _ _ _ => true
  | .setswU _ _ _ => false
  | .setswS _ _ _ => false
  | .setswcU _ _ _ => true
  | .setswcS _ _ _ => true
  | .adc _ => true
  | .sbb _ => true
  | .mulw _ => true
  | .mulc _ => true
  | .addWrap _ => true
  | .addOvf _ => true
  | .addChk _ => true
  | .addUnchk _ => false
  | .addSat _ => true
  | .subWrap _ => true
  | .subOvf _ => true
  | .subChk _ => true
  | .subUnchk _ => false
  | .subSat _ => true
  | .mulWrap _ => true
  | .mulOvf _ => true
  | .mulChk _ => true
  | .mulUnchk _ => false
  | .mulSat _ => true
  | .divWrap _ => false
  | .divOvf _ => false
  | .divChk _ => true
  | .divUnchk _ => false
  | .divSat _ => false
  | .remWrap _ => false
  | .remOvf _ => false
  | .remChk _ => true
  | .remUnchk _ => false
  | .remSat _ => false
  | .negWrap _ => true
  | .negOvf _ => true
  | .negChk _ => true
  | .negUnchk _ => false
  | .negSat _ => true
  | .powWrap _ => true
  | .powOvf _ => true
  | .powChk _ => true
  | .powUnchk _ => false
  | .powSat _ => true
  | .absdiff _ => true
  | .rotl _ => true
  | .rotr _ => true
  | .brev _ => true
  | .cnt1 _ => true
  | .cnt0 _ => true
  | .ld1 _ => true
  | .ld0 _ => true
  | .tr1 _ => true
  | .tr0 _ => true
  | .bswap _ => true
  | .tobe _ => true
  | .tole _ => true
  | .frombe _ => true
  | .fromle _ => true
  | .ispow2 _ => true
  | .nextpow2 _ => decide (mode = .permissive)
  | .ilog _ => false
  | .ilog2 _ => false
  | .ilog10 _ => false
  | .isqrt _ => true

/-- `powc(A, K)` of R189 on numbers below `2^n`: the wrapped power and whether a step overflowed. -/
def powc (n a : Nat) : Nat → Nat × Bool
  | 0 => (1, false)
  | k + 1 =>
    let p := powc n a k
    (p.1 * a % 2 ^ n, p.2 || decide (p.1 * a > 2 ^ n - 1))

end Sys2Proof.Machine

open Sys2Proof Sys2Proof.Machine

/-- Decode and encode agree for all 75 instructions and every field value (`30_encoding.md` R60, R67, R68, R73). -/
def Obligations.DecodeOfEncodeIsTheInstruction : Prop :=
  ∀ (pw : PtrWidth) (i : Instr), i.wellFormed pw = true → decode pw (encode i) = .ok i

/-- Each word has one meaning and each meaning one word (`30_encoding.md` R73: no two instructions share an encoding). -/
def Obligations.DecodedWordIsItsEncoding : Prop :=
  ∀ (pw : PtrWidth) (word : CmdWord) (i : Instr),
    decode pw word = .ok i → i.wellFormed pw = true ∧ encode i = word

/-- Illegal words, the six items spelled out over the fields of R60 (`30_encoding.md` R70). -/
def Obligations.IllegalWordsAreThoseOfTheSixItems : Prop :=
  (∀ (pw : PtrWidth) (word : CmdWord),
    (∃ e, decode pw word = .error e) ↔ illegalWord pw word) ∧
  ∀ (s : State) (c : Command) (rest : List Event),
    s.pending = .command c :: rest → illegalWord s.params.pw c.cmd →
    AbortsWith (step s) { s with ports := c, pending := rest } .illegal

/-- Worked words of `30_encoding.md` and of the family files. -/
def Obligations.SampleWordsDecode : Prop :=
  decode .p64 0x00000100 = .ok (.zero .w32) ∧
  decode .p64 0x0002C104 = .ok (.getswS .w32 .sw16 1) ∧
  decode .p64 0x00000010 = .ok (.adc .w16) ∧
  decode .p64 0x00000321 = .ok (.mulc .w128) ∧
  decode .p64 0x00002030 = .ok (.addSat .w16) ∧
  decode .p64 0x0000044F = .ok (.nextpow2 .wp) ∧
  decode .p64 0x00000252 = .ok (.ilog10 .w64) ∧
  decode .p64 0x00000038 = .error .opcodeUnassigned

/-- A step runs the decoded command (R11, R30; ports sampled once, R277). The ports and the list of pending events are the model's own fields (log entry 4). -/
def Obligations.StepRunsTheDecodedCommand : Prop :=
  ∀ (s : State) (c : Command) (rest : List Event) (i : Instr),
    s.pending = .command c :: rest → decode s.params.pw c.cmd = .ok i →
    step s = exec i { s with ports := c, pending := rest }

/-- R250: "Every change of state and every response is caused by a command." The idle step itself is the model's choice (log entry 4). -/
def Obligations.NothingHappensWithoutAnEvent : Prop :=
  ∀ s : State, s.pending = [] → step s = .next s

/-- The reset event (`70_reset_and_hazards.md` R270, R271). Register contents are unspecified (R35): the model's free values, log entry 2, about which nothing is stated. CORE remembers no abort (R270): that `runFault`, the model's own record of the run (R249), is kept through a reset is the model's DESIGN CHOICE, log entry 6. The idle ports and the pending list are the model's own (log entry 4). -/
def Obligations.ResetEventKeepsParametersAndAbortRecordDropsResponse : Prop :=
  ∀ (s : State) (rest : List Event), s.pending = .reset :: rest →
    ∃ t, step s = .next t ∧ t.params = s.params ∧ t.pending = rest ∧ t.response = none ∧
      t.runFault = s.runFault ∧ t.ports = Command.idle ∧ t.vp.toNat < 2 ^ s.params.pw.bits

/-- What reset leaves (R4, R5 defaults; R270). STRICT (log entry 5) and the zero contents (log entry 1) are the model's choices. -/
def Obligations.ResetStateIsReadyAndClean : Prop :=
  State.reset.params.pw = .p64 ∧ State.reset.params.endian = .le ∧
  State.reset.params.strict = .strict ∧ State.reset.response = none ∧
  State.reset.runFault = none ∧ State.reset.pending = [] ∧
  ∀ w : Width, regNat State.reset w = 0

/-- Every command ends and CORE is always ready for the next (R249 c, R278); the step is total (R11). -/
def Obligations.EveryStepAnswersANextState : Prop :=
  ∀ s : State, ∃ t, step s = .next t

/-- The invariant `State.good` at reset. -/
def Obligations.InvariantHoldsAtReset : Prop :=
  State.reset.good = true

/-- The invariant `State.good` (R21: exactly n bits; R32, R240, R249: how responses are filled; `runFault` is the model's own record, log entry 6) is kept by every step, from every state that has it. -/
def Obligations.EveryStepKeepsTheInvariant : Prop :=
  ∀ s t : State, s.good = true → step s = .next t → t.good = true

/-- The parameters are static: no command reads or writes them as state, and reset does not touch them (R34, R271, R274). -/
def Obligations.NoStepChangesTheParameters : Prop :=
  ∀ s t : State, step s = .next t → t.params = s.params

/-- R249 advises to record an abort as a fault of the run that no later step clears; the field is the model's own (log entry 6). -/
def Obligations.ARunFaultIsNeverCleared : Prop :=
  ∀ s t : State, step s = .next t →
    (∀ f, s.runFault = some f → t.runFault = some f) ∧
    ∀ (c : Command) (rest : List Event), s.pending = .command c :: rest → s.runFault = none →
      ∀ f, t.runFault = some f ↔
      t.response = some { r := 0, r2 := 0, fo := false, ok := false, abort := true,
                          cause := BitVec.ofNat 4 (abortCode f) }

/-- R26 and R22 over all instructions, and the frame of everything that is not the response or the abort record. -/
def Obligations.OnlyFamilyZeroWritersTouchARegister : Prop :=
  ∀ (i : Instr) (s : State), ∃ t, exec i s = .next t ∧
    (∀ w, w ≠ selOf i → regNat t w = regNat s w) ∧
    (writesReg i = false → t.v16 = s.v16 ∧ t.v32 = s.v32 ∧ t.v64 = s.v64 ∧ t.v128 = s.v128 ∧
      t.vp = s.vp) ∧
    t.params = s.params ∧ t.ports = s.ports ∧ t.pending = s.pending ∧ t.resets = s.resets

/-- R11: every command of families 41 to 45 leaves State unchanged and its Response depends on Params and Command alone. -/
def Obligations.ArithmeticAnswersDependOnParametersAndCommandAlone : Prop :=
  ∀ (i : Instr) (s s' : State), familyOf i ≠ 0 → s.params = s'.params → s.ports = s'.ports →
    ∃ t t', exec i s = .next t ∧ exec i s' = .next t' ∧ t.response = t'.response

/-- R29: bits above the width a rule uses are never read, and ports a rule does not name are not read at all. -/
def Obligations.OnlyTheNamedPortBitsAreRead : Prop :=
  ∀ (i : Instr) (s : State) (q : Command), SameOperands s.params.pw i s.ports q →
    ∃ t, exec i s = .next t ∧ exec i { s with ports := q } = .next { t with ports := q }

/-- The abort table over all instructions and over words that do not decode (`60_exceptions.md` R240 to R246). The clause that no abort is recorded is about `runFault`, the model's own field (log entry 6; R249), and so is what AbortsWith leaves open of it. -/
def Obligations.AbortsAreExactlyThoseOfTheTable : Prop :=
  ∀ (i : Instr) (s : State),
    (∀ c, abortCause s i = some c → AbortsWith (exec i s) s c) ∧
    (abortCause s i = none → ∃ t x, exec i s = .next t ∧ t.response = some x ∧
      x.abort = false ∧ x.cause = 0 ∧ t.runFault = s.runFault) ∧
    ∀ (c : Command) (rest : List Event) (e : Reject),
      s.pending = .command c :: rest → decode s.params.pw c.cmd = .error e →
      AbortsWith (step s) { s with ports := c, pending := rest } .illegal

/-- The list of R255, name by name. The clause that no abort is recorded is about `runFault`, the model's own field (log entry 6). -/
def Obligations.ListedCommandsNeverAbort : Prop :=
  ∀ (i : Instr) (s : State), neverAborts s.params.strict i = true →
    ∃ t x, exec i s = .next t ∧ t.response = some x ∧ x.abort = false ∧
      t.runFault = s.runFault

/-- R100, R101, R102, as whole next states. -/
def Obligations.ZeroAndSetReplaceAllBits : Prop :=
  ∀ (s : State) (w : Width),
    exec (.zero w) s = .next (completed (withReg s w 0) 0 0 false true) ∧
    exec (.setU w) s =
      .next (completed (withReg s w (low s.ports.b (s.width w))) 0 0 false true) ∧
    exec (.setS w) s =
      .next (completed (withReg s w (low s.ports.b (s.width w))) 0 0 false true)

/-- R103, R104. -/
def Obligations.NewArrayComposesTheTwoHalves : Prop :=
  ∀ (s : State) (w : Width),
    exec (.newarrU w) s = .next (completed (withReg s w (low s.ports.a (s.width w / 2) +
      2 ^ (s.width w / 2) * low s.ports.b (s.width w / 2))) 0 0 false true) ∧
    exec (.newarrS w) s = .next (completed (withReg s w (low s.ports.a (s.width w / 2) +
      2 ^ (s.width w / 2) * low s.ports.b (s.width w / 2))) 0 0 false true)

/-- R105, R106; the content of a register after reset is log entry 1. -/
def Obligations.GetReturnsTheWholeValue : Prop :=
  ∀ (s : State) (w : Width),
    exec (.getU w) s = .next (completed s (portOf (regNat s w)) 0 false true) ∧
    exec (.getS w) s =
      .next (completed s (BitVec.ofInt 128 (signedOf (s.width w) (regNat s w))) 0 false true)

/-- R107, R108 (and R242 for the getters), by the number formula of R107. -/
def Obligations.UncheckedGetReturnsTheSubWordOrAborts : Prop :=
  ∀ (s : State) (w : Width) (sw : SubWidth) (i : BitVec 8),
    shapeExists s.params.pw w sw = true →
    let e := regNat s w / 2 ^ (i.toNat * sw.bits) % 2 ^ sw.bits
    (i.toNat < s.width w / sw.bits →
      exec (.getswU w sw i) s = .next (completed s (portOf e) 0 false true) ∧
      exec (.getswS w sw i) s =
        .next (completed s (BitVec.ofInt 128 (signedOf sw.bits e)) 0 false true)) ∧
    (¬ i.toNat < s.width w / sw.bits →
      AbortsWith (exec (.getswU w sw i) s) s .idxRange ∧
      AbortsWith (exec (.getswS w sw i) s) s .idxRange)

/-- R109, R110. -/
def Obligations.CheckedGetReturnsTheSubWordOrAbsent : Prop :=
  ∀ (s : State) (w : Width) (sw : SubWidth) (i : BitVec 8),
    shapeExists s.params.pw w sw = true →
    let e := regNat s w / 2 ^ (i.toNat * sw.bits) % 2 ^ sw.bits
    (i.toNat < s.width w / sw.bits →
      exec (.getswcU w sw i) s = .next (completed s (portOf e) 0 false true) ∧
      exec (.getswcS w sw i) s =
        .next (completed s (BitVec.ofInt 128 (signedOf sw.bits e)) 0 false true)) ∧
    (¬ i.toNat < s.width w / sw.bits →
      exec (.getswcU w sw i) s = .next (completed s 0 0 false false) ∧
      exec (.getswcS w sw i) s = .next (completed s 0 0 false false))

/-- R111, R112, by the number formula of R111. -/
def Obligations.UncheckedSetReplacesTheSubWordOrAborts : Prop :=
  ∀ (s : State) (w : Width) (sw : SubWidth) (i : BitVec 8),
    shapeExists s.params.pw w sw = true →
    let old := regNat s w / 2 ^ (i.toNat * sw.bits) % 2 ^ sw.bits
    let t := completed (withReg s w (regNat s w - old * 2 ^ (i.toNat * sw.bits) +
      low s.ports.b sw.bits * 2 ^ (i.toNat * sw.bits))) 0 0 false true
    (i.toNat < s.width w / sw.bits →
      exec (.setswU w sw i) s = .next t ∧ exec (.setswS w sw i) s = .next t) ∧
    (¬ i.toNat < s.width w / sw.bits →
      AbortsWith (exec (.setswU w sw i) s) s .idxRange ∧
      AbortsWith (exec (.setswS w sw i) s) s .idxRange)

/-- R113, R114. -/
def Obligations.CheckedSetReplacesTheSubWordOrFails : Prop :=
  ∀ (s : State) (w : Width) (sw : SubWidth) (i : BitVec 8),
    shapeExists s.params.pw w sw = true →
    let old := regNat s w / 2 ^ (i.toNat * sw.bits) % 2 ^ sw.bits
    let t := completed (withReg s w (regNat s w - old * 2 ^ (i.toNat * sw.bits) +
      low s.ports.b sw.bits * 2 ^ (i.toNat * sw.bits))) 0 0 false true
    (i.toNat < s.width w / sw.bits →
      exec (.setswcU w sw i) s = .next t ∧ exec (.setswcS w sw i) s = .next t) ∧
    (¬ i.toNat < s.width w / sw.bits →
      exec (.setswcU w sw i) s = .next (completed s 0 0 false false) ∧
      exec (.setswcS w sw i) s = .next (completed s 0 0 false false))

/-- The document's round-trip property (R115), for the unsigned commands, run through exec. -/
def Obligations.SubWordsRoundTrip : Prop :=
  ∀ (s s' : State) (w : Width) (sw : SubWidth) (x : Port),
    shapeExists s.params.pw w sw = true → s'.params = s.params →
    ∃ t es u, exec (.setU w) (s.drive s.ports.a x) = .next t ∧
      es.length = s.width w / sw.bits ∧
      (∀ i (h : i < es.length), readElement t w sw i = some es[i]) ∧
      limbValue sw.bits es = low x (s.width w) ∧
      writeElements w sw es 0 s' = some u ∧
      resultOf (exec (.getU w) u) = some (portOf (low x (s.width w)))

/-- Write-then-read and frame (R116, R46), bit by bit. -/
def Obligations.SubWordWriteChangesExactlyItsBits : Prop :=
  ∀ (s : State) (w : Width) (sw : SubWidth) (i : BitVec 8) (j : Instr),
    shapeExists s.params.pw w sw = true → i.toNat < s.width w / sw.bits →
    j ∈ [Instr.setswU w sw i, .setswS w sw i, .setswcU w sw i, .setswcS w sw i] →
    ∃ t, exec j s = .next t ∧
      (∀ k < s.width w, (regNat t w).testBit k =
        if i.toNat * sw.bits ≤ k ∧ k < (i.toNat + 1) * sw.bits then
          s.ports.b.getLsbD (k - i.toNat * sw.bits)
        else (regNat s w).testBit k) ∧
      (∀ w', w' ≠ w → regNat t w' = regNat s w') ∧
      resultOf (exec (.getswU w sw i) t) = some (portOf (low s.ports.b sw.bits))

/-- R43, R44, R45: the same bits under both byte orders. The BE reading is the spec's own (log entry 7). -/
def Obligations.SubWordsSitAtTheirPhysicalPosition : Prop :=
  ∀ (pw : PtrWidth) (w : Width) (sw : SubWidth) (x : BitVec (w.bits pw)) (e : Endian) (i : Nat),
    shapeExists pw w sw = true → i < w.bits pw / sw.bits →
    ((byteImage e x).drop (physicalPos e (w.bits pw / sw.bits) i * (sw.bits / 8))).take
        (sw.bits / 8) =
      byteImage e (subWord x sw.bits i)

/-- R130. -/
def Obligations.AdcGivesSumAndCarry : Prop :=
  ∀ (s : State) (w : Width),
    let n := s.width w
    let e := low s.ports.a n + low s.ports.b n + s.ports.cin.toNat
    exec (.adc w) s = .next (completed s (portOf (e % 2 ^ n)) 0 (decide (e > 2 ^ n - 1)) true)

/-- R132. -/
def Obligations.SbbGivesDifferenceAndBorrow : Prop :=
  ∀ (s : State) (w : Width),
    let n := s.width w
    let e : Int := (low s.ports.a n : Int) - (low s.ports.b n : Int) - (s.ports.cin.toNat : Int)
    exec (.sbb w) s =
      .next (completed s (portOf (e % (2 : Int) ^ n).toNat) 0 (decide (e < 0)) true)

/-- R131, R133. -/
def Obligations.CarryChainIsTwoOverflowSteps : Prop :=
  ∀ (s : State) (w : Width),
    (∃ r1 f1 r2 f2, resultOf (exec (.addOvf w) s) = some r1 ∧ flagOf (exec (.addOvf w) s) = some f1 ∧
      resultOf (exec (.addOvf w) (s.drive r1 (portOf s.ports.cin.toNat))) = some r2 ∧
      flagOf (exec (.addOvf w) (s.drive r1 (portOf s.ports.cin.toNat))) = some f2 ∧
      resultOf (exec (.adc w) s) = some r2 ∧ flagOf (exec (.adc w) s) = some (f1 || f2) ∧
      (f1 && f2) = false) ∧
    (∃ r1 f1 r2 f2, resultOf (exec (.subOvf w) s) = some r1 ∧ flagOf (exec (.subOvf w) s) = some f1 ∧
      resultOf (exec (.subOvf w) (s.drive r1 (portOf s.ports.cin.toNat))) = some r2 ∧
      flagOf (exec (.subOvf w) (s.drive r1 (portOf s.ports.cin.toNat))) = some f2 ∧
      resultOf (exec (.sbb w) s) = some r2 ∧ flagOf (exec (.sbb w) s) = some (f1 || f2) ∧
      (f1 && f2) = false)

/-- R134 for ADC, over the machine's own step, by the host's loop `hostChain`. -/
def Obligations.ChainedAdcAddsWideNumbers : Prop :=
  ∀ (w : Width) (s : State) (limbs : List (Port × Port)) (c0 : Bool),
    let n := s.width w
    let total := limbValue n (limbs.map (·.1)) + limbValue n (limbs.map (·.2)) + c0.toNat
    ∃ rs cy, hostChain (.adc w) limbs c0 s = some (rs, cy) ∧ rs.length = limbs.length ∧
      (∀ r ∈ rs, r.toNat < 2 ^ n) ∧
      limbValue n rs = total % 2 ^ (limbs.length * n) ∧
      (cy = true ↔ 2 ^ (limbs.length * n) ≤ total)

/-- R134 for SBB, over the machine's own step. -/
def Obligations.ChainedSbbSubtractsWideNumbers : Prop :=
  ∀ (w : Width) (s : State) (limbs : List (Port × Port)) (c0 : Bool),
    let n := s.width w
    let total : Int := (limbValue n (limbs.map (·.1)) : Int) -
      (limbValue n (limbs.map (·.2)) : Int) - (c0.toNat : Int)
    ∃ rs cy, hostChain (.sbb w) limbs c0 s = some (rs, cy) ∧ rs.length = limbs.length ∧
      (∀ r ∈ rs, r.toNat < 2 ^ n) ∧
      (limbValue n rs : Int) = total % (2 : Int) ^ (limbs.length * n) ∧
      (cy = true ↔ total < 0)

/-- R140; the meaning is the loop of R141, so this is its correctness (R142). -/
def Obligations.MulwGivesTheFullProduct : Prop :=
  ∀ (s : State) (w : Width),
    let n := s.width w
    let e := low s.ports.a n * low s.ports.b n
    exec (.mulw w) s = .next (completed s (portOf (e % 2 ^ n)) (portOf (e / 2 ^ n)) false true)

/-- The invariant of R142 for the iteration of R141. -/
def Obligations.MulStepKeepsTheLoopInvariant : Prop :=
  ∀ (n : Nat) (x y : BitVec n) (j : Nat) (acc : BitVec n × BitVec n), j < n →
    acc.2.toNat * 2 ^ n + acc.1.toNat = x.toNat * (y.toNat / 2 ^ (j + 1)) →
    (mulStep x (y.getLsbD j) acc).2.toNat * 2 ^ n + (mulStep x (y.getLsbD j) acc).1.toNat =
      x.toNat * (y.toNat / 2 ^ j)

/-- R143 (with R144: E < 2^(2n), so r2 is a whole limb). -/
def Obligations.MulcAddsTheCarryLimb : Prop :=
  ∀ (s : State) (w : Width),
    let n := s.width w
    let e := low s.ports.a n * low s.ports.b n + low s.ports.c n
    exec (.mulc w) s = .next (completed s (portOf (e % 2 ^ n)) (portOf (e / 2 ^ n)) false true) ∧
      e / 2 ^ n < 2 ^ n

/-- R145, one row of the schoolbook multiplication, over the machine's own step. -/
def Obligations.ChainedMulcMultipliesByOneLimb : Prop :=
  ∀ (w : Width) (s : State) (limbs : List Port) (m h : Port),
    let n := s.width w
    h.toNat < 2 ^ n →
    ∃ rs, hostMulRow w m limbs h s = some rs ∧ rs.length = limbs.length + 1 ∧
      (∀ r ∈ rs, r.toNat < 2 ^ n) ∧
      limbValue n rs = low m n * limbValue n limbs + h.toNat

/-- R151 to R155. -/
def Obligations.AddUnderTheFivePolicies : Prop :=
  ∀ (s : State) (w : Width),
    let n := s.width w
    let e := low s.ports.a n + low s.ports.b n
    exec (.addWrap w) s = .next (completed s (portOf (e % 2 ^ n)) 0 false true) ∧
    exec (.addOvf w) s = .next (completed s (portOf (e % 2 ^ n)) 0 (decide (¬ (e ≤ 2 ^ n - 1))) true) ∧
    ((e ≤ 2 ^ n - 1) →
      exec (.addChk w) s = .next (completed s (portOf (e % 2 ^ n)) 0 false true) ∧
      exec (.addUnchk w) s = .next (completed s (portOf (e % 2 ^ n)) 0 false true)) ∧
    (¬ (e ≤ 2 ^ n - 1) →
      exec (.addChk w) s = .next (completed s 0 0 false false) ∧
      AbortsWith (exec (.addUnchk w) s) s .overflow) ∧
    exec (.addSat w) s = .next (completed s (portOf (min e (2 ^ n - 1))) 0 false true)

/-- R156 to R160. -/
def Obligations.SubUnderTheFivePolicies : Prop :=
  ∀ (s : State) (w : Width),
    let n := s.width w
    let x := low s.ports.a n
    let y := low s.ports.b n
    let d := if y ≤ x then x - y else x + 2 ^ n - y
    exec (.subWrap w) s = .next (completed s (portOf d) 0 false true) ∧
    exec (.subOvf w) s = .next (completed s (portOf d) 0 (decide (x < y)) true) ∧
    (y ≤ x →
      exec (.subChk w) s = .next (completed s (portOf (x - y)) 0 false true) ∧
      exec (.subUnchk w) s = .next (completed s (portOf (x - y)) 0 false true)) ∧
    (x < y →
      exec (.subChk w) s = .next (completed s 0 0 false false) ∧
      AbortsWith (exec (.subUnchk w) s) s .overflow) ∧
    exec (.subSat w) s = .next (completed s (portOf (x - y)) 0 false true)

/-- R161 to R165. -/
def Obligations.MulUnderTheFivePolicies : Prop :=
  ∀ (s : State) (w : Width),
    let n := s.width w
    let e := low s.ports.a n * low s.ports.b n
    exec (.mulWrap w) s = .next (completed s (portOf (e % 2 ^ n)) 0 false true) ∧
    exec (.mulOvf w) s = .next (completed s (portOf (e % 2 ^ n)) 0 (decide (¬ (e ≤ 2 ^ n - 1))) true) ∧
    ((e ≤ 2 ^ n - 1) →
      exec (.mulChk w) s = .next (completed s (portOf (e % 2 ^ n)) 0 false true) ∧
      exec (.mulUnchk w) s = .next (completed s (portOf (e % 2 ^ n)) 0 false true)) ∧
    (¬ (e ≤ 2 ^ n - 1) →
      exec (.mulChk w) s = .next (completed s 0 0 false false) ∧
      AbortsWith (exec (.mulUnchk w) s) s .overflow) ∧
    exec (.mulSat w) s = .next (completed s (portOf (min e (2 ^ n - 1))) 0 false true)

/-- R166 to R170. -/
def Obligations.DivUnderTheFivePolicies : Prop :=
  ∀ (s : State) (w : Width),
    let n := s.width w
    let x := low s.ports.a n
    let y := low s.ports.b n
    (y ≠ 0 →
      ∀ i ∈ [Instr.divWrap w, .divOvf w, .divChk w, .divUnchk w, .divSat w],
        exec i s = .next (completed s (portOf (x / y)) 0 false true)) ∧
    (y = 0 →
      exec (.divChk w) s = .next (completed s 0 0 false false) ∧
      ∀ i ∈ [Instr.divWrap w, .divOvf w, .divUnchk w, .divSat w],
        AbortsWith (exec i s) s .divZero)

/-- R171 to R175. -/
def Obligations.RemUnderTheFivePolicies : Prop :=
  ∀ (s : State) (w : Width),
    let n := s.width w
    let x := low s.ports.a n
    let y := low s.ports.b n
    (y ≠ 0 →
      ∀ i ∈ [Instr.remWrap w, .remOvf w, .remChk w, .remUnchk w, .remSat w],
        exec i s = .next (completed s (portOf (x % y)) 0 false true)) ∧
    (y = 0 →
      exec (.remChk w) s = .next (completed s 0 0 false false) ∧
      ∀ i ∈ [Instr.remWrap w, .remOvf w, .remUnchk w, .remSat w],
        AbortsWith (exec i s) s .divZero)

/-- R176 to R180. -/
def Obligations.NegUnderTheFivePolicies : Prop :=
  ∀ (s : State) (w : Width),
    let n := s.width w
    let x := low s.ports.a n
    let m := if x = 0 then 0 else 2 ^ n - x
    exec (.negWrap w) s = .next (completed s (portOf m) 0 false true) ∧
    exec (.negOvf w) s = .next (completed s (portOf m) 0 (decide (x ≠ 0)) true) ∧
    (x = 0 →
      exec (.negChk w) s = .next (completed s 0 0 false true) ∧
      exec (.negUnchk w) s = .next (completed s 0 0 false true)) ∧
    (x ≠ 0 →
      exec (.negChk w) s = .next (completed s 0 0 false false) ∧
      AbortsWith (exec (.negUnchk w) s) s .overflow) ∧
    exec (.negSat w) s = .next (completed s 0 0 false true)

/-- R181 to R185; the model never forms E where it is huge. -/
def Obligations.PowUnderTheFivePolicies : Prop :=
  ∀ (s : State) (w : Width),
    let n := s.width w
    let e := low s.ports.a n ^ s.ports.k.toNat
    exec (.powWrap w) s = .next (completed s (portOf (e % 2 ^ n)) 0 false true) ∧
    exec (.powOvf w) s = .next (completed s (portOf (e % 2 ^ n)) 0 (decide (¬ (e ≤ 2 ^ n - 1))) true) ∧
    ((e ≤ 2 ^ n - 1) →
      exec (.powChk w) s = .next (completed s (portOf (e % 2 ^ n)) 0 false true) ∧
      exec (.powUnchk w) s = .next (completed s (portOf (e % 2 ^ n)) 0 false true)) ∧
    (¬ (e ≤ 2 ^ n - 1) →
      exec (.powChk w) s = .next (completed s 0 0 false false) ∧
      AbortsWith (exec (.powUnchk w) s) s .overflow) ∧
    exec (.powSat w) s = .next (completed s (portOf (min e (2 ^ n - 1))) 0 false true)

/-- R189, `powc` written out. -/
def Obligations.PowIsTheStepwisePower : Prop :=
  ∀ (s : State) (w : Width),
    let n := s.width w
    let p := powc n (low s.ports.a n) s.ports.k.toNat
    exec (.powWrap w) s = .next (completed s (portOf p.1) 0 false true) ∧
    exec (.powOvf w) s = .next (completed s (portOf p.1) 0 p.2 true) ∧
    (p.2 = false →
      exec (.powChk w) s = .next (completed s (portOf p.1) 0 false true) ∧
      exec (.powUnchk w) s = .next (completed s (portOf p.1) 0 false true) ∧
      exec (.powSat w) s = .next (completed s (portOf p.1) 0 false true)) ∧
    (p.2 = true →
      exec (.powChk w) s = .next (completed s 0 0 false false) ∧
      AbortsWith (exec (.powUnchk w) s) s .overflow ∧
      exec (.powSat w) s = .next (completed s (portOf (2 ^ n - 1)) 0 false true))

/-- The consistency laws R187, for all seven operations. -/
def Obligations.PoliciesAreConsistent : Prop :=
  ∀ (op : AluOp) (s : State) (w : Width),
    ((op = .div ∨ op = .rem) → low s.ports.b (s.width w) ≠ 0) →
    ∃ v f, exec (aluInstr op .wrap w) s = .next (completed s v 0 false true) ∧
      exec (aluInstr op .ovf w) s = .next (completed s v 0 f true) ∧
      (f = false →
        exec (aluInstr op .chk w) s = .next (completed s v 0 false true) ∧
        exec (aluInstr op .unchk w) s = .next (completed s v 0 false true) ∧
        exec (aluInstr op .sat w) s = .next (completed s v 0 false true)) ∧
      (f = true →
        op ≠ .div ∧ op ≠ .rem ∧
        exec (aluInstr op .chk w) s = .next (completed s 0 0 false false) ∧
        AbortsWith (exec (aluInstr op .unchk w) s) s .overflow ∧
        exec (aluInstr op .sat w) s =
          .next (completed s (if op = .sub ∨ op = .neg then 0 else portOf (2 ^ s.width w - 1))
            0 false true))

/-- R190, R243 (and `90_conflicts.md` C1). -/
def Obligations.ZeroDivisorAborts : Prop :=
  ∀ (s : State) (w : Width),
    (low s.ports.b (s.width w) = 0 →
      (∀ i ∈ [Instr.divWrap w, .divOvf w, .divUnchk w, .divSat w,
              .remWrap w, .remOvf w, .remUnchk w, .remSat w],
        AbortsWith (exec i s) s .divZero) ∧
      exec (.divChk w) s = .next (completed s 0 0 false false) ∧
      exec (.remChk w) s = .next (completed s 0 0 false false)) ∧
    (low s.ports.b (s.width w) ≠ 0 →
      ∀ i ∈ [Instr.divWrap w, .divOvf w, .divChk w, .divUnchk w, .divSat w,
              .remWrap w, .remOvf w, .remChk w, .remUnchk w, .remSat w],
        ∃ r, exec i s = .next (completed s r 0 false true))

/-- R186. -/
def Obligations.AbsdiffGivesTheDistance : Prop :=
  ∀ (s : State) (w : Width),
    let x := low s.ports.a (s.width w)
    let y := low s.ports.b (s.width w)
    exec (.absdiff w) s =
      .next (completed s (portOf (if y ≤ x then x - y else y - x)) 0 false true)

/-- R200, R201. -/
def Obligations.RotatesMoveBitsAroundTheWidth : Prop :=
  ∀ (s : State) (w : Width),
    let n := s.width w
    let m := s.ports.k.toNat % n
    (∃ r : Port, exec (.rotl w) s = .next (completed s r 0 false true) ∧ r.toNat < 2 ^ n ∧
      ∀ i < n, r.getLsbD ((i + m) % n) = s.ports.a.getLsbD i) ∧
    (∃ r : Port, exec (.rotr w) s = .next (completed s r 0 false true) ∧ r.toNat < 2 ^ n ∧
      ∀ i < n, r.getLsbD i = s.ports.a.getLsbD ((i + m) % n))

/-- R202. -/
def Obligations.RotatesAreInverse : Prop :=
  ∀ (s : State) (w : Width),
    (∃ r, resultOf (exec (.rotl w) s) = some r ∧
      resultOf (exec (.rotr w) (s.drive r s.ports.b)) = some (portOf (low s.ports.a (s.width w)))) ∧
    (∃ r, resultOf (exec (.rotr w) s) = some r ∧
      resultOf (exec (.rotl w) (s.drive r s.ports.b)) = some (portOf (low s.ports.a (s.width w))))

/-- R203. -/
def Obligations.BrevReversesTheBits : Prop :=
  ∀ (s : State) (w : Width),
    let n := s.width w
    ∃ r : Port, exec (.brev w) s = .next (completed s r 0 false true) ∧ r.toNat < 2 ^ n ∧
      (∀ i < n, r.getLsbD i = s.ports.a.getLsbD (n - 1 - i)) ∧
      resultOf (exec (.brev w) (s.drive r s.ports.b)) = some (portOf (low s.ports.a n))

/-- R204, R205 (and the sum of R217). -/
def Obligations.PopulationCountsCountBits : Prop :=
  ∀ (s : State) (w : Width),
    let n := s.width w
    let ones := ((Finset.range n).filter fun i => s.ports.a.getLsbD i = true).card
    let zeros := ((Finset.range n).filter fun i => s.ports.a.getLsbD i = false).card
    exec (.cnt1 w) s = .next (completed s (portOf ones) 0 false true) ∧
    exec (.cnt0 w) s = .next (completed s (portOf zeros) 0 false true) ∧
    ones + zeros = n

/-- R206 to R209: the largest such j. -/
def Obligations.LeadingAndTrailingCountsMeasureRuns : Prop :=
  ∀ (s : State) (w : Width),
    let n := s.width w
    let a := s.ports.a
    (∀ p ∈ [(Instr.ld1 w, true), (Instr.ld0 w, false)], ∃ j ≤ n,
      exec p.1 s = .next (completed s (portOf j) 0 false true) ∧
      (∀ i < j, a.getLsbD (n - 1 - i) = p.2) ∧ (j < n → a.getLsbD (n - 1 - j) = !p.2)) ∧
    (∀ p ∈ [(Instr.tr1 w, true), (Instr.tr0 w, false)], ∃ j ≤ n,
      exec p.1 s = .next (completed s (portOf j) 0 false true) ∧
      (∀ i < j, a.getLsbD i = p.2) ∧ (j < n → a.getLsbD j = !p.2))

/-- R210. -/
def Obligations.BswapReversesTheBytes : Prop :=
  ∀ (s : State) (w : Width),
    let n := s.width w
    ∃ r : Port, exec (.bswap w) s = .next (completed s r 0 false true) ∧ r.toNat < 2 ^ n ∧
      (∀ j < n / 8, ∀ b < 8, r.getLsbD (8 * j + b) = s.ports.a.getLsbD (n - 8 - 8 * j + b)) ∧
      resultOf (exec (.bswap w) (s.drive r s.ports.b)) = some (portOf (low s.ports.a n)) ∧
      byteImage .be (s.ports.a.setWidth n) = byteImage .le (r.setWidth n)

/-- R211 to R214, with the meaning by byte images (R43). -/
def Obligations.ByteOrderConversionsFollowEndian : Prop :=
  ∀ (s : State) (w : Width),
    let n := s.width w
    let a := portOf (low s.ports.a n)
    ∃ v : Port, exec (.bswap w) s = .next (completed s v 0 false true) ∧
      (∀ i ∈ [Instr.tobe w, .frombe w], exec i s = .next (completed s
        (match s.params.endian with | .be => a | .le => v) 0 false true)) ∧
      (∀ i ∈ [Instr.tole w, .fromle w], exec i s = .next (completed s
        (match s.params.endian with | .le => a | .be => v) 0 false true)) ∧
      (∀ r, resultOf (exec (.tobe w) s) = some r →
        byteImage s.params.endian (r.setWidth n) = byteImage .be (s.ports.a.setWidth n)) ∧
      (∀ r, resultOf (exec (.tole w) s) = some r →
        byteImage s.params.endian (r.setWidth n) = byteImage .le (s.ports.a.setWidth n))

/-- R215. -/
def Obligations.IspowTwoIsExactlyOneBit : Prop :=
  ∀ (s : State) (w : Width),
    let n := s.width w
    exec (.ispow2 w) s = .next (completed s 0 0
      (decide (((Finset.range n).filter fun i => s.ports.a.getLsbD i = true).card = 1)) true) ∧
    (flagOf (exec (.ispow2 w) s) = some true ↔ ∃ j < n, low s.ports.a n = 2 ^ j)

/-- R216. -/
def Obligations.NextPowTwoRoundsUpAbortsOrWraps : Prop :=
  ∀ (s : State) (w : Width),
    let n := s.width w
    let x := low s.ports.a n
    (x ≤ 2 ^ (n - 1) → ∃ j < n,
      exec (.nextpow2 w) s = .next (completed s (portOf (2 ^ j)) 0 false true) ∧
      x ≤ 2 ^ j ∧ ∀ i < j, 2 ^ i < x) ∧
    (2 ^ (n - 1) < x → s.params.strict = .strict →
      AbortsWith (exec (.nextpow2 w) s) s .pow2Range) ∧
    (2 ^ (n - 1) < x → s.params.strict = .permissive →
      exec (.nextpow2 w) s = .next (completed s 0 0 false true))

/-- R230, R232, over exact powers. -/
def Obligations.IlogIsTheFloorLogarithm : Prop :=
  ∀ (s : State) (w : Width),
    let x := low s.ports.a (s.width w)
    let y := low s.ports.b (s.width w)
    (x ≠ 0 → 2 ≤ y → ∃ e,
      exec (.ilog w) s = .next (completed s (portOf e) 0 false true) ∧
      y ^ e ≤ x ∧ x < y ^ (e + 1) ∧ e < s.width w) ∧
    ((x = 0 ∨ y < 2) → AbortsWith (exec (.ilog w) s) s .logDomain) ∧
    (x ≠ 0 → ∃ e,
      exec (.ilog10 w) s = .next (completed s (portOf e) 0 false true) ∧
      10 ^ e ≤ x ∧ x < 10 ^ (e + 1) ∧ e < s.width w) ∧
    (x = 0 → AbortsWith (exec (.ilog10 w) s) s .logDomain)

/-- R231. -/
def Obligations.IlogTwoIsTheHighestSetBit : Prop :=
  ∀ (s : State) (w : Width),
    let n := s.width w
    let x := low s.ports.a n
    (x ≠ 0 → ∃ j < n,
      exec (.ilog2 w) s = .next (completed s (portOf j) 0 false true) ∧
      s.ports.a.getLsbD j = true ∧ (∀ i < n, j < i → s.ports.a.getLsbD i = false) ∧
      2 ^ j ≤ x ∧ x < 2 ^ (j + 1)) ∧
    (x = 0 → AbortsWith (exec (.ilog2 w) s) s .logDomain)

/-- R233. -/
def Obligations.IsqrtIsTheFloorRoot : Prop :=
  ∀ (s : State) (w : Width),
    let x := low s.ports.a (s.width w)
    ∃ q, exec (.isqrt w) s = .next (completed s (portOf q) 0 false true) ∧
      q * q ≤ x ∧ x < (q + 1) * (q + 1) ∧ q < 2 ^ (s.width w / 2)
end

