-- ==== Sys2Proof/Laws/Decode.lean ====
section
/-! SUPPORT. The bit-field lemmas of the decoder: cutting a word that was put together gives the
fields back, and putting cut fields together gives the word back. -/

namespace Sys2Proof

/-- The bit picture of R67, bit by bit. -/
theorem wordOf_getLsbD (f : Fields) (i : Nat) :
    (wordOf f).getLsbD i =
      if i < 8 then f.opc.getLsbD i
      else if i < 11 then f.wsel.getLsbD (i - 8)
      else if i < 14 then f.pol.getLsbD (i - 11)
      else if i < 15 then f.s.getLsbD (i - 14)
      else if i < 17 then f.sh.getLsbD (i - 15)
      else if i < 25 then f.idx.getLsbD (i - 17)
      else f.rsv.getLsbD (i - 25) := by
  change @BitVec.getLsbD (7 + 8 + 2 + 1 + 3 + 3 + 8)
    (f.rsv ++ f.idx ++ f.sh ++ f.s ++ f.pol ++ f.wsel ++ f.opc) i = _
  simp only [BitVec.getLsbD_append, Nat.sub_sub]
  repeat' split
  all_goals first | rfl | omega

/-- Cutting a word made of fields gives those fields. -/
@[simp] theorem fieldsOf_wordOf (f : Fields) : fieldsOf (wordOf f) = f := by
  obtain ⟨opc, wsel, pol, s, sh, idx, rsv⟩ := f
  simp only [fieldsOf, Fields.mk.injEq]
  refine ⟨?_, ?_, ?_, ?_, ?_, ?_, ?_⟩ <;>
  · ext i hi
    simp only [BitVec.getElem_extractLsb', wordOf_getLsbD]
    repeat (first | rw [if_neg (by omega)] | rw [if_pos (by omega)])
    simp [BitVec.getLsbD_eq_getElem, hi]

/-- Putting the fields of a word together gives that word: no bit lies outside a field. -/
theorem wordOf_fieldsOf (word : CmdWord) : wordOf (fieldsOf word) = word := by
  apply BitVec.eq_of_getLsbD_eq
  intro i hi
  simp only [wordOf_getLsbD, fieldsOf, BitVec.getLsbD_extractLsb']
  repeat' split
  all_goals first
    | (rw [decide_eq_true (by omega), Bool.true_and]; congr 1; omega)

/-- Two words with the same fields are the same word. -/
theorem fieldsOf_injective {v w : CmdWord} (h : fieldsOf v = fieldsOf w) : v = w := by
  rw [← wordOf_fieldsOf v, ← wordOf_fieldsOf w, h]

end Sys2Proof
end

