-- ==== Sys2Proof/Laws/Exec.lean ====
section
/-! SUPPORT. What each arm of `exec` is, one equation per instruction, so that a proof rewrites with
the meaning it needs and unfolds nothing else. -/

namespace Sys2Proof.Machine

theorem exec_zero (w : Width) (s : State) :
    exec (.zero w) s =
    s.store w 0 := rfl

theorem exec_setU (w : Width) (s : State) :
    exec (.setU w) s =
    s.store w s.ports.b := rfl

theorem exec_setS (w : Width) (s : State) :
    exec (.setS w) s =
    s.store w s.ports.b := rfl

theorem exec_newarrU (w : Width) (s : State) :
    exec (.newarrU w) s =
    s.store w (s.arrayValue w) := rfl

theorem exec_newarrS (w : Width) (s : State) :
    exec (.newarrS w) s =
    s.store w (s.arrayValue w) := rfl

theorem exec_getU (w : Width) (s : State) :
    exec (.getU w) s =
    .next (s.setResponse (Response.value (zext (s.regVal w)))) := rfl

theorem exec_getS (w : Width) (s : State) :
    exec (.getS w) s =
    .next (s.setResponse (Response.value (sext (s.regVal w)))) := rfl

theorem exec_getswU (w : Width) (sw : SubWidth) (idx : BitVec 8) (s : State) :
    exec (.getswU w sw idx) s =
    s.getUnchecked ((s.subWordAt w sw idx).map zext) := rfl

theorem exec_getswS (w : Width) (sw : SubWidth) (idx : BitVec 8) (s : State) :
    exec (.getswS w sw idx) s =
    s.getUnchecked ((s.subWordAt w sw idx).map sext) := rfl

theorem exec_getswcU (w : Width) (sw : SubWidth) (idx : BitVec 8) (s : State) :
    exec (.getswcU w sw idx) s =
    s.getChecked ((s.subWordAt w sw idx).map zext) := rfl

theorem exec_getswcS (w : Width) (sw : SubWidth) (idx : BitVec 8) (s : State) :
    exec (.getswcS w sw idx) s =
    s.getChecked ((s.subWordAt w sw idx).map sext) := rfl

theorem exec_setswU (w : Width) (sw : SubWidth) (idx : BitVec 8) (s : State) :
    exec (.setswU w sw idx) s =
    s.setUnchecked (s.withSubWord w sw idx) := rfl

theorem exec_setswS (w : Width) (sw : SubWidth) (idx : BitVec 8) (s : State) :
    exec (.setswS w sw idx) s =
    s.setUnchecked (s.withSubWord w sw idx) := rfl

theorem exec_setswcU (w : Width) (sw : SubWidth) (idx : BitVec 8) (s : State) :
    exec (.setswcU w sw idx) s =
    s.setChecked (s.withSubWord w sw idx) := rfl

theorem exec_setswcS (w : Width) (sw : SubWidth) (idx : BitVec 8) (s : State) :
    exec (.setswcS w sw idx) s =
    s.setChecked (s.withSubWord w sw idx) := rfl

theorem exec_adc (w : Width) (s : State) :
    exec (.adc w) s =
    s.answer (.done (Response.flagged (zext (adcBits (s.opA w) (s.opB w) s.ports.cin).1)
      (adcBits (s.opA w) (s.opB w) s.ports.cin).2)) := rfl

theorem exec_sbb (w : Width) (s : State) :
    exec (.sbb w) s =
    s.answer (.done (Response.flagged (zext (sbbBits (s.opA w) (s.opB w) s.ports.cin).1)
      (sbbBits (s.opA w) (s.opB w) s.ports.cin).2)) := rfl

theorem exec_mulw (w : Width) (s : State) :
    exec (.mulw w) s =
    s.answer (.done (Response.pair (zext (mulWide (s.opA w) (s.opB w)).1)
      (zext (mulWide (s.opA w) (s.opB w)).2))) := rfl

theorem exec_mulc (w : Width) (s : State) :
    exec (.mulc w) s =
    s.answer (.done (Response.pair (zext (mulCarry (s.opA w) (s.opB w) (s.opC w)).1)
      (zext (mulCarry (s.opA w) (s.opB w) (s.opC w)).2))) := rfl

theorem exec_addWrap (w : Width) (s : State) :
    exec (.addWrap w) s =
    s.answer (policyAnswer .wrap (exactAdd (s.opA w) (s.opB w))) := rfl

theorem exec_addOvf (w : Width) (s : State) :
    exec (.addOvf w) s =
    s.answer (policyAnswer .ovf (exactAdd (s.opA w) (s.opB w))) := rfl

theorem exec_addChk (w : Width) (s : State) :
    exec (.addChk w) s =
    s.answer (policyAnswer .chk (exactAdd (s.opA w) (s.opB w))) := rfl

theorem exec_addUnchk (w : Width) (s : State) :
    exec (.addUnchk w) s =
    s.answer (policyAnswer .unchk (exactAdd (s.opA w) (s.opB w))) := rfl

theorem exec_addSat (w : Width) (s : State) :
    exec (.addSat w) s =
    s.answer (policyAnswer .sat (exactAdd (s.opA w) (s.opB w))) := rfl

theorem exec_subWrap (w : Width) (s : State) :
    exec (.subWrap w) s =
    s.answer (policyAnswer .wrap (exactSub (s.opA w) (s.opB w))) := rfl

theorem exec_subOvf (w : Width) (s : State) :
    exec (.subOvf w) s =
    s.answer (policyAnswer .ovf (exactSub (s.opA w) (s.opB w))) := rfl

theorem exec_subChk (w : Width) (s : State) :
    exec (.subChk w) s =
    s.answer (policyAnswer .chk (exactSub (s.opA w) (s.opB w))) := rfl

theorem exec_subUnchk (w : Width) (s : State) :
    exec (.subUnchk w) s =
    s.answer (policyAnswer .unchk (exactSub (s.opA w) (s.opB w))) := rfl

theorem exec_subSat (w : Width) (s : State) :
    exec (.subSat w) s =
    s.answer (policyAnswer .sat (exactSub (s.opA w) (s.opB w))) := rfl

theorem exec_mulWrap (w : Width) (s : State) :
    exec (.mulWrap w) s =
    s.answer (policyAnswer .wrap (exactMul (s.opA w) (s.opB w))) := rfl

theorem exec_mulOvf (w : Width) (s : State) :
    exec (.mulOvf w) s =
    s.answer (policyAnswer .ovf (exactMul (s.opA w) (s.opB w))) := rfl

theorem exec_mulChk (w : Width) (s : State) :
    exec (.mulChk w) s =
    s.answer (policyAnswer .chk (exactMul (s.opA w) (s.opB w))) := rfl

theorem exec_mulUnchk (w : Width) (s : State) :
    exec (.mulUnchk w) s =
    s.answer (policyAnswer .unchk (exactMul (s.opA w) (s.opB w))) := rfl

theorem exec_mulSat (w : Width) (s : State) :
    exec (.mulSat w) s =
    s.answer (policyAnswer .sat (exactMul (s.opA w) (s.opB w))) := rfl

theorem exec_divWrap (w : Width) (s : State) :
    exec (.divWrap w) s =
    s.answer (policyAnswer .wrap (exactDiv (s.opA w) (s.opB w))) := rfl

theorem exec_divOvf (w : Width) (s : State) :
    exec (.divOvf w) s =
    s.answer (policyAnswer .ovf (exactDiv (s.opA w) (s.opB w))) := rfl

theorem exec_divChk (w : Width) (s : State) :
    exec (.divChk w) s =
    s.answer (policyAnswer .chk (exactDiv (s.opA w) (s.opB w))) := rfl

theorem exec_divUnchk (w : Width) (s : State) :
    exec (.divUnchk w) s =
    s.answer (policyAnswer .unchk (exactDiv (s.opA w) (s.opB w))) := rfl

theorem exec_divSat (w : Width) (s : State) :
    exec (.divSat w) s =
    s.answer (policyAnswer .sat (exactDiv (s.opA w) (s.opB w))) := rfl

theorem exec_remWrap (w : Width) (s : State) :
    exec (.remWrap w) s =
    s.answer (policyAnswer .wrap (exactRem (s.opA w) (s.opB w))) := rfl

theorem exec_remOvf (w : Width) (s : State) :
    exec (.remOvf w) s =
    s.answer (policyAnswer .ovf (exactRem (s.opA w) (s.opB w))) := rfl

theorem exec_remChk (w : Width) (s : State) :
    exec (.remChk w) s =
    s.answer (policyAnswer .chk (exactRem (s.opA w) (s.opB w))) := rfl

theorem exec_remUnchk (w : Width) (s : State) :
    exec (.remUnchk w) s =
    s.answer (policyAnswer .unchk (exactRem (s.opA w) (s.opB w))) := rfl

theorem exec_remSat (w : Width) (s : State) :
    exec (.remSat w) s =
    s.answer (policyAnswer .sat (exactRem (s.opA w) (s.opB w))) := rfl

theorem exec_negWrap (w : Width) (s : State) :
    exec (.negWrap w) s =
    s.answer (policyAnswer .wrap (exactNeg (s.opA w))) := rfl

theorem exec_negOvf (w : Width) (s : State) :
    exec (.negOvf w) s =
    s.answer (policyAnswer .ovf (exactNeg (s.opA w))) := rfl

theorem exec_negChk (w : Width) (s : State) :
    exec (.negChk w) s =
    s.answer (policyAnswer .chk (exactNeg (s.opA w))) := rfl

theorem exec_negUnchk (w : Width) (s : State) :
    exec (.negUnchk w) s =
    s.answer (policyAnswer .unchk (exactNeg (s.opA w))) := rfl

theorem exec_negSat (w : Width) (s : State) :
    exec (.negSat w) s =
    s.answer (policyAnswer .sat (exactNeg (s.opA w))) := rfl

theorem exec_powWrap (w : Width) (s : State) :
    exec (.powWrap w) s =
    s.answer (policyAnswer .wrap (exactPow (s.opA w) s.opK)) := rfl

theorem exec_powOvf (w : Width) (s : State) :
    exec (.powOvf w) s =
    s.answer (policyAnswer .ovf (exactPow (s.opA w) s.opK)) := rfl

theorem exec_powChk (w : Width) (s : State) :
    exec (.powChk w) s =
    s.answer (policyAnswer .chk (exactPow (s.opA w) s.opK)) := rfl

theorem exec_powUnchk (w : Width) (s : State) :
    exec (.powUnchk w) s =
    s.answer (policyAnswer .unchk (exactPow (s.opA w) s.opK)) := rfl

theorem exec_powSat (w : Width) (s : State) :
    exec (.powSat w) s =
    s.answer (policyAnswer .sat (exactPow (s.opA w) s.opK)) := rfl

theorem exec_absdiff (w : Width) (s : State) :
    exec (.absdiff w) s =
    s.answer (.done (Response.value (zext (absDiff (s.opA w) (s.opB w))))) := rfl

theorem exec_rotl (w : Width) (s : State) :
    exec (.rotl w) s =
    s.answer (.done (Response.value (zext (rotLeft (s.opA w) s.opK)))) := rfl

theorem exec_rotr (w : Width) (s : State) :
    exec (.rotr w) s =
    s.answer (.done (Response.value (zext (rotRight (s.opA w) s.opK)))) := rfl

theorem exec_brev (w : Width) (s : State) :
    exec (.brev w) s =
    s.answer (.done (Response.value (zext (bitReverse (s.opA w))))) := rfl

theorem exec_cnt1 (w : Width) (s : State) :
    exec (.cnt1 w) s =
    s.answer (.done (Response.value (natPort (countBits true (s.opA w))))) := rfl

theorem exec_cnt0 (w : Width) (s : State) :
    exec (.cnt0 w) s =
    s.answer (.done (Response.value (natPort (countBits false (s.opA w))))) := rfl

theorem exec_ld1 (w : Width) (s : State) :
    exec (.ld1 w) s =
    s.answer (.done (Response.value (natPort (leadingRun true (s.opA w))))) := rfl

theorem exec_ld0 (w : Width) (s : State) :
    exec (.ld0 w) s =
    s.answer (.done (Response.value (natPort (leadingRun false (s.opA w))))) := rfl

theorem exec_tr1 (w : Width) (s : State) :
    exec (.tr1 w) s =
    s.answer (.done (Response.value (natPort (trailingRun true (s.opA w))))) := rfl

theorem exec_tr0 (w : Width) (s : State) :
    exec (.tr0 w) s =
    s.answer (.done (Response.value (natPort (trailingRun false (s.opA w))))) := rfl

theorem exec_bswap (w : Width) (s : State) :
    exec (.bswap w) s =
    s.answer (.done (Response.value (zext (byteSwap (s.opA w))))) := rfl

theorem exec_tobe (w : Width) (s : State) :
    exec (.tobe w) s =
    s.answer (.done (Response.value (zext (toOrder s.params.endian .be (s.opA w))))) := rfl

theorem exec_tole (w : Width) (s : State) :
    exec (.tole w) s =
    s.answer (.done (Response.value (zext (toOrder s.params.endian .le (s.opA w))))) := rfl

theorem exec_frombe (w : Width) (s : State) :
    exec (.frombe w) s =
    s.answer (.done (Response.value (zext (toOrder s.params.endian .be (s.opA w))))) := rfl

theorem exec_fromle (w : Width) (s : State) :
    exec (.fromle w) s =
    s.answer (.done (Response.value (zext (toOrder s.params.endian .le (s.opA w))))) := rfl

theorem exec_ispow2 (w : Width) (s : State) :
    exec (.ispow2 w) s =
    s.answer (.done (Response.flagged 0 (decide (countBits true (s.opA w) = 1)))) := rfl

theorem exec_nextpow2 (w : Width) (s : State) :
    exec (.nextpow2 w) s =
    s.answer (nextPow2Answer s.params.strict (s.opA w)) := rfl

theorem exec_ilog (w : Width) (s : State) :
    exec (.ilog w) s =
    s.answer
      (if (s.opA w).toNat = 0 ∨ (s.opB w).toNat < 2 then .abort .logDomain
      else .done (Response.value
      (natPort (ilogNat (s.width w) (s.opB w).toNat (s.opA w).toNat)))) := rfl

theorem exec_ilog2 (w : Width) (s : State) :
    exec (.ilog2 w) s =
    s.answer
      (if (s.opA w).toNat = 0 then .abort .logDomain
      else .done (Response.value (natPort (bitLength (s.opA w) - 1)))) := rfl

theorem exec_ilog10 (w : Width) (s : State) :
    exec (.ilog10 w) s =
    s.answer
      (if (s.opA w).toNat = 0 then .abort .logDomain
      else .done (Response.value (natPort (ilogNat (s.width w) 10 (s.opA w).toNat)))) := rfl

theorem exec_isqrt (w : Width) (s : State) :
    exec (.isqrt w) s =
    s.answer (.done (Response.value (natPort (isqrtNat (s.width w) (s.opA w).toNat)))) := rfl

end Sys2Proof.Machine
end

