-- ==== Sys2Proof/Laws/Ends.lean ====
section
/-! SUPPORT. How every instruction ends: a good response with nothing else changed, an abort, or one
whole register written. One lemma about all of exec, which the proofs over every instruction cite. -/

namespace Sys2Proof.Machine

/-- An answer whose response is well formed and is no abort, or an abort. -/
def Answer.good : Answer → Bool
  | .done resp => resp.good && !resp.abort
  | .abort _ => true

/-- A plain value is a good answer. -/
theorem good_value (r : Port) : (Answer.done (Response.value r)).good = true := by
  simp [Answer.good, Response.good, Response.value]

/-- A value with a flag is a good answer. -/
theorem good_flagged (r : Port) (f : Bool) : (Answer.done (Response.flagged r f)).good = true := by
  simp [Answer.good, Response.good, Response.flagged, Response.value]

/-- Two limbs are a good answer. -/
theorem good_pair (r r2 : Port) : (Answer.done (Response.pair r r2)).good = true := by
  simp [Answer.good, Response.good, Response.pair, Response.value]

/-- Absent is a good answer. -/
theorem good_absent : (Answer.done Response.absent).good = true := by
  simp [Answer.good, Response.good, Response.absent]

/-- Every policy answers well. -/
theorem good_policyAnswer {n : Nat} (p : Policy) (e : Option (Exact n)) :
    (policyAnswer p e).good = true := by
  cases e <;> cases p <;> simp only [policyAnswer] <;>
    (try split) <;> simp [Answer.good, Response.good, Response.flagged, Response.value, Response.absent]

/-- NEXTPOW2 answers well under both settings. -/
theorem good_nextPow2Answer {n : Nat} (m : Strictness) (x : BitVec n) :
    (nextPow2Answer m x).good = true := by
  unfold nextPow2Answer
  split
  · exact good_value _
  · cases m
    · rfl
    · exact good_value _

/-- A logarithm answers well, with its domain abort. -/
theorem good_ite_abort (p : Prop) [Decidable p] (c : Cause) (r : Port) :
    (if p then Answer.abort c else Answer.done (Response.value r)).good = true := by
  split
  · rfl
  · exact good_value _

/-- The three ways a command can end: a good response with nothing else changed, an abort, or a
whole register written. -/
def Ends (x : Result) (i : Instr) (s : State) : Prop :=
  (∃ resp, (Answer.done resp).good = true ∧ x = .next (s.setResponse resp)) ∨
  (∃ c, x = .next (s.takeAbort c)) ∨
  (writesReg i = true ∧ ∃ v, x = .next ((s.writeReg (selOf i) v).setResponse Response.done))

/-- A good answer ends a command well. -/
theorem ends_answer (i : Instr) (s : State) (x : Answer) (h : x.good = true) :
    Ends (s.answer x) i s := by
  cases x with
  | done resp => exact .inl ⟨resp, h, rfl⟩
  | abort c => exact .inr (.inl ⟨c, rfl⟩)

/-- How an unchecked get ends. -/
theorem ends_getUnchecked (i : Instr) (s : State) (v : Option Port) :
    Ends (s.getUnchecked v) i s := by
  cases v with
  | none => exact .inr (.inl ⟨_, rfl⟩)
  | some r => exact .inl ⟨_, good_value r, rfl⟩

/-- How a checked get ends. -/
theorem ends_getChecked (i : Instr) (s : State) (v : Option Port) :
    Ends (s.getChecked v) i s := by
  cases v with
  | none => exact .inl ⟨_, good_absent, rfl⟩
  | some r => exact .inl ⟨_, good_value r, rfl⟩

/-- How an unchecked set ends. -/
theorem ends_setUnchecked (i : Instr) (s : State) (sw : SubWidth) (idx : BitVec 8)
    (h : writesReg i = true) :
    Ends (s.setUnchecked (s.withSubWord (selOf i) sw idx)) i s := by
  unfold State.withSubWord
  split
  · exact .inr (.inr ⟨h, _, rfl⟩)
  · exact .inr (.inl ⟨_, rfl⟩)

/-- How a checked set ends. -/
theorem ends_setChecked (i : Instr) (s : State) (sw : SubWidth) (idx : BitVec 8)
    (h : writesReg i = true) :
    Ends (s.setChecked (s.withSubWord (selOf i) sw idx)) i s := by
  unfold State.withSubWord
  split
  · exact .inr (.inr ⟨h, _, rfl⟩)
  · exact .inl ⟨_, good_absent, rfl⟩

/-- How every instruction ends. -/
theorem exec_ends (i : Instr) (s : State) : Ends (exec i s) i s := by
  cases i with
  | zero w => exact .inr (.inr ⟨rfl, _, rfl⟩)
  | setU w => exact .inr (.inr ⟨rfl, _, rfl⟩)
  | setS w => exact .inr (.inr ⟨rfl, _, rfl⟩)
  | newarrU w => exact .inr (.inr ⟨rfl, _, rfl⟩)
  | newarrS w => exact .inr (.inr ⟨rfl, _, rfl⟩)
  | getU w => exact .inl ⟨_, good_value _, rfl⟩
  | getS w => exact .inl ⟨_, good_value _, rfl⟩
  | getswU w sw idx => exact ends_getUnchecked _ _ _
  | getswS w sw idx => exact ends_getUnchecked _ _ _
  | getswcU w sw idx => exact ends_getChecked _ _ _
  | getswcS w sw idx => exact ends_getChecked _ _ _
  | setswU w sw idx => exact ends_setUnchecked (.setswU w sw idx) s sw idx rfl
  | setswS w sw idx => exact ends_setUnchecked (.setswS w sw idx) s sw idx rfl
  | setswcU w sw idx => exact ends_setChecked (.setswcU w sw idx) s sw idx rfl
  | setswcS w sw idx => exact ends_setChecked (.setswcS w sw idx) s sw idx rfl
  | adc w => exact ends_answer _ _ _ (good_flagged _ _)
  | sbb w => exact ends_answer _ _ _ (good_flagged _ _)
  | mulw w => exact ends_answer _ _ _ (good_pair _ _)
  | mulc w => exact ends_answer _ _ _ (good_pair _ _)
  | ispow2 w => exact ends_answer _ _ _ (good_flagged _ _)
  | nextpow2 w => exact ends_answer _ _ _ (good_nextPow2Answer _ _)
  | ilog w => exact ends_answer _ _ _ (good_ite_abort _ _ _)
  | ilog2 w => exact ends_answer _ _ _ (good_ite_abort _ _ _)
  | ilog10 w => exact ends_answer _ _ _ (good_ite_abort _ _ _)
  | absdiff w | rotl w | rotr w | brev w | cnt1 w | cnt0 w | ld1 w | ld0 w | tr1 w | tr0 w
  | bswap w | tobe w | tole w | frombe w | fromle w | isqrt w =>
    exact ends_answer _ _ _ (good_value _)
  | addWrap w => rw [exec, execAddWrap]; exact ends_answer _ _ _ (good_policyAnswer _ _)
  | addOvf w => rw [exec, execAddOvf]; exact ends_answer _ _ _ (good_policyAnswer _ _)
  | addChk w => rw [exec, execAddChk]; exact ends_answer _ _ _ (good_policyAnswer _ _)
  | addUnchk w => rw [exec, execAddUnchk]; exact ends_answer _ _ _ (good_policyAnswer _ _)
  | addSat w => rw [exec, execAddSat]; exact ends_answer _ _ _ (good_policyAnswer _ _)
  | subWrap w => rw [exec, execSubWrap]; exact ends_answer _ _ _ (good_policyAnswer _ _)
  | subOvf w => rw [exec, execSubOvf]; exact ends_answer _ _ _ (good_policyAnswer _ _)
  | subChk w => rw [exec, execSubChk]; exact ends_answer _ _ _ (good_policyAnswer _ _)
  | subUnchk w => rw [exec, execSubUnchk]; exact ends_answer _ _ _ (good_policyAnswer _ _)
  | subSat w => rw [exec, execSubSat]; exact ends_answer _ _ _ (good_policyAnswer _ _)
  | mulWrap w => rw [exec, execMulWrap]; exact ends_answer _ _ _ (good_policyAnswer _ _)
  | mulOvf w => rw [exec, execMulOvf]; exact ends_answer _ _ _ (good_policyAnswer _ _)
  | mulChk w => rw [exec, execMulChk]; exact ends_answer _ _ _ (good_policyAnswer _ _)
  | mulUnchk w => rw [exec, execMulUnchk]; exact ends_answer _ _ _ (good_policyAnswer _ _)
  | mulSat w => rw [exec, execMulSat]; exact ends_answer _ _ _ (good_policyAnswer _ _)
  | divWrap w => rw [exec, execDivWrap]; exact ends_answer _ _ _ (good_policyAnswer _ _)
  | divOvf w => rw [exec, execDivOvf]; exact ends_answer _ _ _ (good_policyAnswer _ _)
  | divChk w => rw [exec, execDivChk]; exact ends_answer _ _ _ (good_policyAnswer _ _)
  | divUnchk w => rw [exec, execDivUnchk]; exact ends_answer _ _ _ (good_policyAnswer _ _)
  | divSat w => rw [exec, execDivSat]; exact ends_answer _ _ _ (good_policyAnswer _ _)
  | remWrap w => rw [exec, execRemWrap]; exact ends_answer _ _ _ (good_policyAnswer _ _)
  | remOvf w => rw [exec, execRemOvf]; exact ends_answer _ _ _ (good_policyAnswer _ _)
  | remChk w => rw [exec, execRemChk]; exact ends_answer _ _ _ (good_policyAnswer _ _)
  | remUnchk w => rw [exec, execRemUnchk]; exact ends_answer _ _ _ (good_policyAnswer _ _)
  | remSat w => rw [exec, execRemSat]; exact ends_answer _ _ _ (good_policyAnswer _ _)
  | negWrap w => rw [exec, execNegWrap]; exact ends_answer _ _ _ (good_policyAnswer _ _)
  | negOvf w => rw [exec, execNegOvf]; exact ends_answer _ _ _ (good_policyAnswer _ _)
  | negChk w => rw [exec, execNegChk]; exact ends_answer _ _ _ (good_policyAnswer _ _)
  | negUnchk w => rw [exec, execNegUnchk]; exact ends_answer _ _ _ (good_policyAnswer _ _)
  | negSat w => rw [exec, execNegSat]; exact ends_answer _ _ _ (good_policyAnswer _ _)
  | powWrap w => rw [exec, execPowWrap]; exact ends_answer _ _ _ (good_policyAnswer _ _)
  | powOvf w => rw [exec, execPowOvf]; exact ends_answer _ _ _ (good_policyAnswer _ _)
  | powChk w => rw [exec, execPowChk]; exact ends_answer _ _ _ (good_policyAnswer _ _)
  | powUnchk w => rw [exec, execPowUnchk]; exact ends_answer _ _ _ (good_policyAnswer _ _)
  | powSat w => rw [exec, execPowSat]; exact ends_answer _ _ _ (good_policyAnswer _ _)

end Sys2Proof.Machine
end

