-- ==== Sys2Proof/Laws/Operands.lean ====
section
/-! SUPPORT. What the operand forms are, as numbers and bit by bit: widths, ports, sub-words,
extensions, values given bit by bit. -/

namespace Sys2Proof.Machine

/-- The five widths take four values. -/
theorem width_cases (pw : PtrWidth) (w : Width) :
    w.bits pw = 16 ∨ w.bits pw = 32 ∨ w.bits pw = 64 ∨ w.bits pw = 128 := by
  cases w <;> cases pw <;> simp [Width.bits, PtrWidth.bits]

/-- Every width is at least 16. -/
theorem width_ge (pw : PtrWidth) (w : Width) : 16 ≤ w.bits pw := by
  rcases width_cases pw w with h | h | h | h <;> omega

/-- Every width fits a port. -/
theorem width_le (pw : PtrWidth) (w : Width) : w.bits pw ≤ 128 := by
  rcases width_cases pw w with h | h | h | h <;> omega

/-- The pointer width fits a port. -/
theorem ptrWidth_le (pw : PtrWidth) : pw.bits ≤ 128 := width_le pw .wp

/-- Numbers of a width fit a port. -/
theorem two_pow_width_le (pw : PtrWidth) (w : Width) : 2 ^ w.bits pw ≤ 2 ^ 128 :=
  Nat.pow_le_pow_right (by decide) (width_le pw w)

/-- No width is 0. -/
theorem width_pos (s : State) (w : Width) :
    1 ≤ s.width w := le_trans (by decide) (width_ge s.params.pw w)

/-- The low bits of a port are below the power of two. -/
theorem low_lt (p : Port) (n : Nat) : low p n < 2 ^ n := Nat.mod_lt _ (Nat.two_pow_pos n)

/-- Cutting a port to `n` bits gives the number its low bits stand for. -/
theorem toNat_setWidth_low (p : Port) (n : Nat) : (p.setWidth n).toNat = low p n := by
  simp [low]

/-- The number port `a` stands for at the width in force. -/
theorem opA_toNat (s : State) (w : Width) :
    (s.opA w).toNat = low s.ports.a (s.width w) := toNat_setWidth_low _ _

/-- The number port `b` stands for at the width in force. -/
theorem opB_toNat (s : State) (w : Width) :
    (s.opB w).toNat = low s.ports.b (s.width w) := toNat_setWidth_low _ _

/-- The number port `c` stands for at the width in force. -/
theorem opC_toNat (s : State) (w : Width) :
    (s.opC w).toNat = low s.ports.c (s.width w) := toNat_setWidth_low _ _

/-- A bit of a cut port below the width is the port's bit. -/
theorem opA_getLsbD (s : State) (w : Width) (i : Nat) (h : i < s.width w) :
    (s.opA w).getLsbD i = s.ports.a.getLsbD i := by
  simp only [State.opA, BitVec.getLsbD_setWidth, h, decide_true, Bool.true_and]

/-- Zero extension puts the value's number on the port. -/
theorem zext_eq (n : Nat) (v : BitVec n) : zext v = portOf v.toNat := by
  apply BitVec.eq_of_toNat_eq
  simp [zext, portOf]

/-- Zero on a port. -/
theorem zext_zero (n : Nat) : zext (0 : BitVec n) = 0 := by rw [zext_eq]; simp [portOf]

/-- Sign extension puts the signed number on the port. -/
theorem sext_eq (n : Nat) (hn : 1 ≤ n) (v : BitVec n) :
    sext v = BitVec.ofInt 128 (signedOf n v.toNat) := by
  have h : v.toInt = signedOf n v.toNat := by
    obtain ⟨m, rfl⟩ : ∃ m, n = m + 1 := ⟨n - 1, by omega⟩
    have : 2 ^ (m + 1) = 2 * 2 ^ m := by rw [pow_succ]; ring
    unfold signedOf BitVec.toInt
    simp only [Nat.add_sub_cancel]
    split <;> split <;> first | omega | (push_cast; rfl)
  rw [← h]; rfl

/-- A count on a port. -/
theorem natPort_eq (m : Nat) : natPort m = portOf m := rfl

/-- A number below `2^128` is read back from the port. -/
theorem portOf_toNat (m : Nat) (h : m < 2 ^ 128) : (portOf m).toNat = m := by
  simp only [portOf, BitVec.toNat_ofNat]
  exact Nat.mod_eq_of_lt h

/-- A sub-word as a number (R25). -/
theorem subWord_toNat {n} (x : BitVec n) (w i : Nat) :
    (subWord x w i).toNat = x.toNat / 2 ^ (i * w) % 2 ^ w := by
  simp [subWord, BitVec.extractLsb', Nat.shiftRight_eq_div_pow]

/-- A sub-word write, bit by bit (R111). -/
theorem setSubWord_getLsbD {n} (x : BitVec n) (w i : Nat) (v : BitVec w) (k : Nat) (hk : k < n) :
    (setSubWord x w i v).getLsbD k =
      if i * w ≤ k ∧ k < (i + 1) * w then v.getLsbD (k - i * w) else x.getLsbD k := by
  have e : (i + 1) * w = i * w + w := by ring
  simp only [setSubWord, subMask, BitVec.getLsbD_or, BitVec.getLsbD_and, BitVec.getLsbD_not,
    BitVec.getLsbD_shiftLeft, BitVec.getLsbD_setWidth, BitVec.getLsbD_allOnes, hk, decide_true, Bool.true_and]
  by_cases h1 : k < i * w
  · simp [h1, show ¬ (i * w ≤ k) by omega]
  · by_cases h2 : k < (i + 1) * w
    · have : k - i * w < w := by omega
      simp [h1, h2, this, show i * w ≤ k by omega, show k - i * w < n by omega]
    · have : ¬ (k - i * w < w) := by omega
      simp [h1, h2, this]
      rw [BitVec.getLsbD_of_ge _ _ (by omega)]; simp

/-- An index in range leaves its sub-word inside the value. -/
theorem inRange_le {n w i : Nat} (h : i < n / w) : (i + 1) * w ≤ n := by
  calc (i + 1) * w ≤ n / w * w := Nat.mul_le_mul_right _ h
    _ ≤ n := Nat.div_mul_le_self n w

/-- A number given by `n` bits is below `2^n`. -/
theorem bitSum_lt (f : Nat → Bool) (n : Nat) : bitSum f n < 2 ^ n := by
  induction n with
  | zero => simp [bitSum]
  | succ n ih => rw [bitSum, pow_succ]; split <;> omega

/-- The bits of a number given bit by bit. -/
theorem bitSum_testBit (f : Nat → Bool) (n i : Nat) :
    (bitSum f n).testBit i = (decide (i < n) && f i) := by
  induction n with
  | zero => simp [bitSum]
  | succ n ih =>
    rw [bitSum]
    have hlt := bitSum_lt f n
    have e : bitSum f n + (if f n then 2 ^ n else 0) = 2 ^ n * (if f n then 1 else 0) + bitSum f n := by split <;> ring
    rw [e, Nat.testBit_two_pow_mul_add _ hlt]
    by_cases h : i < n
    · simp [h, ih, show i < n + 1 by omega]
    · by_cases h2 : i = n
      · subst h2; simp; cases f i <;> simp
      · have : i - n ≠ 0 := by omega
        simp [h, show ¬ i < n + 1 by omega]
        split
        · rw [Nat.testBit_eq_decide_div_mod_eq]
          have : 1 / 2 ^ (i - n) = 0 := Nat.div_eq_of_lt (Nat.one_lt_two_pow this)
          simp [this]
        · simp

/-- The bits of a value given bit by bit. -/
theorem fromBits_getLsbD (n : Nat) (f : Nat → Bool) (i : Nat) :
    (fromBits n f).getLsbD i = (decide (i < n) && f i) := by
  rw [fromBits, BitVec.getLsbD_ofNat, bitSum_testBit]
  cases decide (i < n) <;> simp

end Sys2Proof.Machine
end

