-- ==== Sys2Proof/Laws/Ops.lean ====
section
/-! SUPPORT. What the named operations over the state can do, once each: responses, aborts, answers,
reading and writing a value register. -/

namespace Sys2Proof.Machine

/-- The codes of the causes are those of R240. -/
theorem cause_code (c : Cause) : c.code = BitVec.ofNat 4 (abortCode c) := by
  cases c <;> rfl

/-- What taking an abort does, in the terms of the statements. -/
theorem abortsWith_takeAbort (s : State) (c : Cause) :
    AbortsWith (.next (s.takeAbort c)) s c := by
  refine ⟨(s.takeAbort c).runFault, ?_⟩
  simp only [State.takeAbort, Response.aborted, cause_code]

/-- Giving a value, in the terms of the statements. -/
theorem setResponse_value (s : State) (r : Port) :
    s.setResponse (Response.value r) = completed s r 0 false true := rfl

/-- Giving an empty answer, in the terms of the statements. -/
theorem setResponse_done (s : State) :
    s.setResponse Response.done = completed s 0 0 false true := rfl

/-- Answering absent, in the terms of the statements. -/
theorem setResponse_absent (s : State) :
    s.setResponse Response.absent = completed s 0 0 false false := rfl

/-- Giving a value and a flag, in the terms of the statements. -/
theorem setResponse_flagged (s : State) (r : Port) (f : Bool) :
    s.setResponse (Response.flagged r f) = completed s r 0 f true := rfl

/-- Giving two limbs, in the terms of the statements. -/
theorem setResponse_pair (s : State) (r r2 : Port) :
    s.setResponse (Response.pair r r2) = completed s r r2 false true := rfl

/-- The result of a completed command is what port r carries if ok = 1, and none if ok = 0. -/
@[simp] theorem resultOf_completed (s : State) (r r2 : Port) (fo ok : Bool) :
    resultOf (.next (completed s r r2 fo ok)) = if ok then some r else none := rfl

/-- The flag of a completed command is what port fo carries. -/
@[simp] theorem flagOf_completed (s : State) (r r2 : Port) (fo ok : Bool) :
    flagOf (.next (completed s r r2 fo ok)) = some fo := rfl

/-- An aborted command has no result. -/
theorem resultOf_aborts {x : Result} {s : State} {c : Cause} (h : AbortsWith x s c) :
    resultOf x = none := by
  obtain ⟨f, rfl⟩ := h; rfl

/-- An aborted command has no flag. -/
theorem flagOf_aborts {x : Result} {s : State} {c : Cause} (h : AbortsWith x s c) :
    flagOf x = none := by
  obtain ⟨f, rfl⟩ := h; rfl

/-- Everything a command that touches no register can do. -/
theorem answer_eq (s : State) (x : Answer) :
    (∃ resp, x = .done resp ∧ s.answer x = .next (s.setResponse resp)) ∨
    (∃ c, x = .abort c ∧ s.answer x = .next (s.takeAbort c)) := by
  cases x with
  | done resp => exact .inl ⟨resp, rfl, rfl⟩
  | abort c => exact .inr ⟨c, rfl, rfl⟩

/-- Writing a register leaves the others. -/
theorem regNat_writeReg_ne (s : State) (w w' : Width) (v : BitVec 128) (h : w' ≠ w) :
    regNat (s.writeReg w v) w' = regNat s w' := by
  cases w <;> cases w' <;> first | rfl | exact absurd rfl h

/-- Writing a register: all its bits are the value's. -/
theorem regNat_writeReg (s : State) (w : Width) (v : BitVec 128) :
    regNat (s.writeReg w v) w = v.toNat % 2 ^ s.width w := by
  cases w with
  | w128 => exact (Nat.mod_eq_of_lt v.isLt).symm
  | wp =>
    have h : 2 ^ s.params.pw.bits ≤ 2 ^ 128 := Nat.pow_le_pow_right (by decide) (ptrWidth_le _)
    simp only [regNat, State.writeReg, State.width, Width.bits, BitVec.toNat_setWidth]
    rw [Nat.mod_eq_of_lt (lt_of_lt_of_le (Nat.mod_lt _ (Nat.two_pow_pos _)) h), Nat.mod_mod]
  | _ => simp [regNat, State.writeReg, State.width, Width.bits]

/-- Writing a register, in the terms of the statements. -/
theorem withReg_eq (s : State) (w : Width) (v : BitVec 128) (m : Nat)
    (h : v.toNat % 2 ^ s.width w = m % 2 ^ s.width w) :
    s.writeReg w v = withReg s w m := by
  cases w <;> simp only [State.writeReg, withReg, State.width, Width.bits] at * <;> congr 1 <;>
    apply BitVec.eq_of_toNat_eq
  · simpa using h
  · simpa using h
  · simpa using h
  · rw [Nat.mod_eq_of_lt v.isLt] at h
    simpa using h
  · rw [← h]
    simp

/-- All a storing command can do. -/
theorem store_eq (s : State) (w : Width) (v : BitVec 128) (m : Nat)
    (h : v.toNat % 2 ^ s.width w = m % 2 ^ s.width w) :
    s.store w v = .next (completed (withReg s w m) 0 0 false true) := by
  rw [State.store, withReg_eq s w v m h, setResponse_done]

/-- The register read as a number. -/
theorem readReg_toNat (s : State) (w : Width) : (s.readReg w).toNat = regNat s w := by
  cases w with
  | w128 => rfl
  | wp =>
    simp only [State.readReg, regNat, BitVec.toNat_setWidth]
    have h : 2 ^ s.params.pw.bits ≤ 2 ^ 128 := Nat.pow_le_pow_right (by decide) (ptrWidth_le _)
    exact Nat.mod_eq_of_lt (lt_of_lt_of_le (Nat.mod_lt _ (Nat.two_pow_pos _)) h)
  | w16 => 
    simp only [State.readReg, regNat, BitVec.toNat_setWidth]
    exact Nat.mod_eq_of_lt (lt_of_lt_of_le s.v16.isLt (by decide))
  | w32 => 
    simp only [State.readReg, regNat, BitVec.toNat_setWidth]
    exact Nat.mod_eq_of_lt (lt_of_lt_of_le s.v32.isLt (by decide))
  | w64 => 
    simp only [State.readReg, regNat, BitVec.toNat_setWidth]
    exact Nat.mod_eq_of_lt (lt_of_lt_of_le s.v64.isLt (by decide))

/-- A register holds a number of its width (R21). -/
theorem regNat_lt (s : State) (w : Width) : regNat s w < 2 ^ s.width w := by
  cases w with
  | wp => exact Nat.mod_lt _ (Nat.two_pow_pos _)
  | _ => exact BitVec.isLt _

/-- The register at its own width, as a number. -/
theorem regVal_toNat (s : State) (w : Width) : (s.regVal w).toNat = regNat s w := by
  rw [State.regVal, BitVec.toNat_setWidth, readReg_toNat, Nat.mod_eq_of_lt (regNat_lt s w)]

/-- Giving a response leaves every register. -/
theorem regNat_completed (s : State) (a b c d w) :
    regNat (completed s a b c d) w = regNat s w := by cases w <;> rfl

end Sys2Proof.Machine
end

