-- ==== Sys2Proof/Laws/Flags.lean ====
section
/-! SUPPORT. What the flag computations give: where an exact result lies, the five policies over a
natural exact result (R150), the adder and the subtractor (R130, R132), the highest set bit. -/

namespace Sys2Proof.Machine

/-- Wrapping an integer, as a number (R7). -/
theorem ofInt_toNat (n : Nat) (x : Int) : (BitVec.ofInt n x).toNat = (x % 2 ^ n).toNat := by
  simp [BitVec.toNat_ofInt]

/-- An exact result is inside when it is representable (R8). -/
theorem placeOf_inside (n : Nat) (e : Int) :
    placeOf n e = .inside ↔ 0 ≤ e ∧ e ≤ (maxNat n : Int) := by
  unfold placeOf
  split
  · simp; omega
  · split <;> simp <;> omega

/-- An exact result is below when it is negative (R8). -/
theorem placeOf_below (n : Nat) (e : Int) : placeOf n e = .below ↔ e < 0 := by
  unfold placeOf
  split
  · simp; omega
  · split <;> simp <;> omega

/-- An exact result is above when it exceeds `MAX_n` (R8). -/
theorem placeOf_above (n : Nat) (e : Int) : placeOf n e = .above ↔ (maxNat n : Int) < e := by
  unfold placeOf
  split
  · simp; omega
  · split <;> simp <;> omega

/-- The wrapped form of a natural exact result. -/
theorem exactInt_nat_wrapped (n m : Nat) : (exactInt n (m : Int)).wrapped.toNat = m % 2 ^ n := by
  simp [exactInt]

/-- Where a natural exact result lies. -/
theorem exactInt_nat_place (n m : Nat) :
    (exactInt n (m : Int)).place = if m ≤ 2 ^ n - 1 then .inside else .above := by
  by_cases h : m ≤ 2 ^ n - 1
  · rw [if_pos h, exactInt, placeOf_inside]
    exact ⟨by omega, by exact_mod_cast h⟩
  · rw [if_neg h, exactInt, placeOf_above]
    simp only [maxNat]
    omega

/-- The five policies over a natural exact result. -/
theorem answer_policy_nat (s : State) (n m : Nat) (x : Exact n)
    (hw : x.wrapped.toNat = m % 2 ^ n)
    (hp : x.place = if m ≤ 2 ^ n - 1 then .inside else .above) :
    s.answer (policyAnswer .wrap (some x)) =
      .next (completed s (portOf (m % 2 ^ n)) 0 false true) ∧
    s.answer (policyAnswer .ovf (some x)) =
      .next (completed s (portOf (m % 2 ^ n)) 0 (decide (¬ m ≤ 2 ^ n - 1)) true) ∧
    (m ≤ 2 ^ n - 1 →
      s.answer (policyAnswer .chk (some x)) =
        .next (completed s (portOf (m % 2 ^ n)) 0 false true) ∧
      s.answer (policyAnswer .unchk (some x)) =
        .next (completed s (portOf (m % 2 ^ n)) 0 false true)) ∧
    (¬ m ≤ 2 ^ n - 1 →
      s.answer (policyAnswer .chk (some x)) = .next (completed s 0 0 false false) ∧
      AbortsWith (s.answer (policyAnswer .unchk (some x))) s .overflow) ∧
    s.answer (policyAnswer .sat (some x)) =
      .next (completed s (portOf (min m (2 ^ n - 1))) 0 false true) := by
  have hz : zext x.wrapped = portOf (m % 2 ^ n) := by rw [zext_eq, hw]
  refine ⟨?_, ?_, ?_, ?_, ?_⟩
  · simp [policyAnswer, State.answer, hz, setResponse_value]
  · simp only [policyAnswer, State.answer, hz, setResponse_flagged, hp]
    split
    · simp_all
      try rfl
    · simp_all
      try rfl
  · intro h
    simp [policyAnswer, State.answer, hz, setResponse_value, hp, h]
  · intro h
    simp only [policyAnswer, hp, h]
    exact ⟨rfl, abortsWith_takeAbort s .overflow⟩
  · simp only [policyAnswer, State.answer, setResponse_value, clamped, hp]
    split
    · rename_i h
      split at h <;> cases h
    · rename_i h
      have hm : m ≤ 2 ^ n - 1 := by
        by_contra hc
        rw [if_neg hc] at h
        cases h
      rw [hz, Nat.mod_eq_of_lt (by have := Nat.two_pow_pos n; omega), Nat.min_eq_left hm]
    · rename_i h
      have hm : ¬ m ≤ 2 ^ n - 1 := by
        intro hc
        rw [if_pos hc] at h
        cases h
      rw [zext_eq, BitVec.toNat_allOnes, Nat.min_eq_right (by omega)]

/-- The sum of the adder. -/
theorem adcBits_fst {n} (x y : BitVec n) (c : Bool) :
    (adcBits x y c).1.toNat = (x.toNat + y.toNat + c.toNat) % 2 ^ n := by
  simp [adcBits]

/-- The carry of the adder. -/
theorem adcBits_snd {n} (x y : BitVec n) (c : Bool) :
    (adcBits x y c).2 = decide (x.toNat + y.toNat + c.toNat > 2 ^ n - 1) := rfl

/-- Carry and sum together are the exact sum. -/
theorem adcBits_sum {n} (x y : BitVec n) (c : Bool) :
    (adcBits x y c).2.toNat * 2 ^ n + (adcBits x y c).1.toNat = x.toNat + y.toNat + c.toNat := by
  rw [adcBits_fst, adcBits_snd]
  have := x.isLt; have := y.isLt
  have hc : c.toNat ≤ 1 := by cases c <;> simp
  have : 1 ≤ 2 ^ n := Nat.one_le_two_pow
  by_cases h : x.toNat + y.toNat + c.toNat > 2 ^ n - 1
  · simp only [h, decide_true, Bool.toNat_true, one_mul]
    rw [Nat.mod_eq_sub_mod (by omega), Nat.mod_eq_of_lt (by omega)]; omega
  · simp only [h, decide_false, Bool.toNat_false, zero_mul, zero_add]
    rw [Nat.mod_eq_of_lt (by omega)]

/-- The borrow of the subtractor. -/
theorem sbbBits_snd {n} (x y : BitVec n) (c : Bool) :
    (sbbBits x y c).2 = decide ((x.toNat:Int) - y.toNat - c.toNat < 0) := rfl

/-- The range of a remainder. -/
theorem emod_two_pow (n : Nat) (e : Int) :
    0 ≤ e % (2 : Int) ^ n ∧ e % (2 : Int) ^ n < 2 ^ n :=
  ⟨Int.emod_nonneg _ (by positivity), Int.emod_lt_of_pos _ (by positivity)⟩

/-- Borrow and difference together are the exact difference. -/
theorem sbbBits_sum {n} (x y : BitVec n) (c : Bool) :
    ((sbbBits x y c).1.toNat : Int) - (sbbBits x y c).2.toNat * 2 ^ n = x.toNat - y.toNat - c.toNat := by
  have hx := x.isLt; have hy := y.isLt
  have hc : c.toNat ≤ 1 := by cases c <;> simp
  simp only [sbbBits, ofInt_toNat]
  have hN : ((2 ^ n : Nat) : Int) = (2:Int) ^ n := by push_cast; rfl
  obtain ⟨h0, h1⟩ := emod_two_pow n ((x.toNat : Int) - y.toNat - c.toNat)
  rw [Int.toNat_of_nonneg h0]
  by_cases h : (x.toNat : Int) - y.toNat - c.toNat < 0
  · simp only [h, decide_true, Bool.toNat_true]
    rw [← Int.add_emod_right, Int.emod_eq_of_lt (by omega) (by omega)]; push_cast; ring
  · simp only [h, decide_false, Bool.toNat_false]
    rw [Int.emod_eq_of_lt (by omega) (by omega)]; simp

/-- What the search for the highest set bit finds. -/
theorem bitLengthBelow_spec {n} (x : BitVec n) (m : Nat) (h : x.toNat < 2 ^ m) :
    bitLengthBelow x m ≤ m ∧ x.toNat < 2 ^ (bitLengthBelow x m) ∧
      (0 < bitLengthBelow x m → x.getLsbD (bitLengthBelow x m - 1) = true) := by
  induction m with
  | zero => simp [bitLengthBelow]; omega
  | succ m ih =>
    rw [bitLengthBelow]
    split
    · rename_i hb; exact ⟨le_refl _, h, fun _ => by simpa using hb⟩
    · rename_i hb
      have : x.toNat < 2 ^ m := by
        by_contra hc
        have : x.toNat.testBit m = true := by
          rw [Nat.testBit_eq_decide_div_mod_eq]
          have h1 : x.toNat / 2 ^ m = 1 := by
            rw [pow_succ] at h
            exact Nat.div_eq_of_lt_le (by omega) (by omega)
          simp [h1]
        exact hb this
      obtain ⟨h1, h2⟩ := ih this
      exact ⟨by omega, h2⟩

/-- All the bit length can be. -/
theorem bitLength_spec {n} (x : BitVec n) :
    bitLength x ≤ n ∧ x.toNat < 2 ^ bitLength x ∧
      (0 < bitLength x → x.getLsbD (bitLength x - 1) = true) :=
  bitLengthBelow_spec x n x.isLt

/-- A pair of halves is the quotient and the remainder of its number. -/
theorem split_pair {n} (lo hi : BitVec n) (e : Nat) (h : hi.toNat * 2 ^ n + lo.toNat = e) :
    lo.toNat = e % 2 ^ n ∧ hi.toNat = e / 2 ^ n := by
  subst h
  have := lo.isLt
  constructor
  · rw [Nat.mul_add_mod_self_right, Nat.mod_eq_of_lt this]
  · rw [add_comm, Nat.add_mul_div_right _ _ (Nat.two_pow_pos n), Nat.div_eq_of_lt this, zero_add]

end Sys2Proof.Machine
end

