-- ==== Sys2Proof/Laws/PerInstr.lean ====
section
/-! SUPPORT. Statements about every instruction as syntax, one lemma per constructor. -/

namespace Sys2Proof

/-- A field record with RSV zero and the code of a width passes items 1 and 2 of R70. -/
theorem rsv_and_wsel_of_wordOf (f : Fields) (w : Width) (hr : f.rsv = 0) (hw : f.wsel = w.code) :
    (fieldsOf (wordOf f)).rsv = 0 ∧ widthOf (fieldsOf (wordOf f)).wsel = some w := by
  rw [fieldsOf_wordOf, hw]
  exact ⟨hr, by cases w <;> rfl⟩

end Sys2Proof

namespace Sys2Proof.Laws.ReservedFieldIsZero

/-- The encoder leaves RSV zero and its WSEL names a width, so that items 1 and 2 of R70 never refuse an
encoded instruction. -/
def Statement (i : Instr) : Prop :=
  (fieldsOf (encode i)).rsv = 0 ∧ ∃ w, widthOf (fieldsOf (encode i)).wsel = some w

theorem zero (w : Width) : Statement (.zero w) :=
  have h := rsv_and_wsel_of_wordOf _ w rfl rfl
  ⟨h.1, w, h.2⟩

theorem setU (w : Width) : Statement (.setU w) :=
  have h := rsv_and_wsel_of_wordOf _ w rfl rfl
  ⟨h.1, w, h.2⟩

theorem setS (w : Width) : Statement (.setS w) :=
  have h := rsv_and_wsel_of_wordOf _ w rfl rfl
  ⟨h.1, w, h.2⟩

theorem newarrU (w : Width) : Statement (.newarrU w) :=
  have h := rsv_and_wsel_of_wordOf _ w rfl rfl
  ⟨h.1, w, h.2⟩

theorem newarrS (w : Width) : Statement (.newarrS w) :=
  have h := rsv_and_wsel_of_wordOf _ w rfl rfl
  ⟨h.1, w, h.2⟩

theorem getU (w : Width) : Statement (.getU w) :=
  have h := rsv_and_wsel_of_wordOf _ w rfl rfl
  ⟨h.1, w, h.2⟩

theorem getS (w : Width) : Statement (.getS w) :=
  have h := rsv_and_wsel_of_wordOf _ w rfl rfl
  ⟨h.1, w, h.2⟩

theorem getswU (w : Width) (sw : SubWidth) (idx : BitVec 8) : Statement (.getswU w sw idx) :=
  have h := rsv_and_wsel_of_wordOf _ w rfl rfl
  ⟨h.1, w, h.2⟩

theorem getswS (w : Width) (sw : SubWidth) (idx : BitVec 8) : Statement (.getswS w sw idx) :=
  have h := rsv_and_wsel_of_wordOf _ w rfl rfl
  ⟨h.1, w, h.2⟩

theorem getswcU (w : Width) (sw : SubWidth) (idx : BitVec 8) : Statement (.getswcU w sw idx) :=
  have h := rsv_and_wsel_of_wordOf _ w rfl rfl
  ⟨h.1, w, h.2⟩

theorem getswcS (w : Width) (sw : SubWidth) (idx : BitVec 8) : Statement (.getswcS w sw idx) :=
  have h := rsv_and_wsel_of_wordOf _ w rfl rfl
  ⟨h.1, w, h.2⟩

theorem setswU (w : Width) (sw : SubWidth) (idx : BitVec 8) : Statement (.setswU w sw idx) :=
  have h := rsv_and_wsel_of_wordOf _ w rfl rfl
  ⟨h.1, w, h.2⟩

theorem setswS (w : Width) (sw : SubWidth) (idx : BitVec 8) : Statement (.setswS w sw idx) :=
  have h := rsv_and_wsel_of_wordOf _ w rfl rfl
  ⟨h.1, w, h.2⟩

theorem setswcU (w : Width) (sw : SubWidth) (idx : BitVec 8) : Statement (.setswcU w sw idx) :=
  have h := rsv_and_wsel_of_wordOf _ w rfl rfl
  ⟨h.1, w, h.2⟩

theorem setswcS (w : Width) (sw : SubWidth) (idx : BitVec 8) : Statement (.setswcS w sw idx) :=
  have h := rsv_and_wsel_of_wordOf _ w rfl rfl
  ⟨h.1, w, h.2⟩

theorem adc (w : Width) : Statement (.adc w) :=
  have h := rsv_and_wsel_of_wordOf _ w rfl rfl
  ⟨h.1, w, h.2⟩

theorem sbb (w : Width) : Statement (.sbb w) :=
  have h := rsv_and_wsel_of_wordOf _ w rfl rfl
  ⟨h.1, w, h.2⟩

theorem mulw (w : Width) : Statement (.mulw w) :=
  have h := rsv_and_wsel_of_wordOf _ w rfl rfl
  ⟨h.1, w, h.2⟩

theorem mulc (w : Width) : Statement (.mulc w) :=
  have h := rsv_and_wsel_of_wordOf _ w rfl rfl
  ⟨h.1, w, h.2⟩

theorem addWrap (w : Width) : Statement (.addWrap w) :=
  have h := rsv_and_wsel_of_wordOf _ w rfl rfl
  ⟨h.1, w, h.2⟩

theorem addOvf (w : Width) : Statement (.addOvf w) :=
  have h := rsv_and_wsel_of_wordOf _ w rfl rfl
  ⟨h.1, w, h.2⟩

theorem addChk (w : Width) : Statement (.addChk w) :=
  have h := rsv_and_wsel_of_wordOf _ w rfl rfl
  ⟨h.1, w, h.2⟩

theorem addUnchk (w : Width) : Statement (.addUnchk w) :=
  have h := rsv_and_wsel_of_wordOf _ w rfl rfl
  ⟨h.1, w, h.2⟩

theorem addSat (w : Width) : Statement (.addSat w) :=
  have h := rsv_and_wsel_of_wordOf _ w rfl rfl
  ⟨h.1, w, h.2⟩

theorem subWrap (w : Width) : Statement (.subWrap w) :=
  have h := rsv_and_wsel_of_wordOf _ w rfl rfl
  ⟨h.1, w, h.2⟩

theorem subOvf (w : Width) : Statement (.subOvf w) :=
  have h := rsv_and_wsel_of_wordOf _ w rfl rfl
  ⟨h.1, w, h.2⟩

theorem subChk (w : Width) : Statement (.subChk w) :=
  have h := rsv_and_wsel_of_wordOf _ w rfl rfl
  ⟨h.1, w, h.2⟩

theorem subUnchk (w : Width) : Statement (.subUnchk w) :=
  have h := rsv_and_wsel_of_wordOf _ w rfl rfl
  ⟨h.1, w, h.2⟩

theorem subSat (w : Width) : Statement (.subSat w) :=
  have h := rsv_and_wsel_of_wordOf _ w rfl rfl
  ⟨h.1, w, h.2⟩

theorem mulWrap (w : Width) : Statement (.mulWrap w) :=
  have h := rsv_and_wsel_of_wordOf _ w rfl rfl
  ⟨h.1, w, h.2⟩

theorem mulOvf (w : Width) : Statement (.mulOvf w) :=
  have h := rsv_and_wsel_of_wordOf _ w rfl rfl
  ⟨h.1, w, h.2⟩

theorem mulChk (w : Width) : Statement (.mulChk w) :=
  have h := rsv_and_wsel_of_wordOf _ w rfl rfl
  ⟨h.1, w, h.2⟩

theorem mulUnchk (w : Width) : Statement (.mulUnchk w) :=
  have h := rsv_and_wsel_of_wordOf _ w rfl rfl
  ⟨h.1, w, h.2⟩

theorem mulSat (w : Width) : Statement (.mulSat w) :=
  have h := rsv_and_wsel_of_wordOf _ w rfl rfl
  ⟨h.1, w, h.2⟩

theorem divWrap (w : Width) : Statement (.divWrap w) :=
  have h := rsv_and_wsel_of_wordOf _ w rfl rfl
  ⟨h.1, w, h.2⟩

theorem divOvf (w : Width) : Statement (.divOvf w) :=
  have h := rsv_and_wsel_of_wordOf _ w rfl rfl
  ⟨h.1, w, h.2⟩

theorem divChk (w : Width) : Statement (.divChk w) :=
  have h := rsv_and_wsel_of_wordOf _ w rfl rfl
  ⟨h.1, w, h.2⟩

theorem divUnchk (w : Width) : Statement (.divUnchk w) :=
  have h := rsv_and_wsel_of_wordOf _ w rfl rfl
  ⟨h.1, w, h.2⟩

theorem divSat (w : Width) : Statement (.divSat w) :=
  have h := rsv_and_wsel_of_wordOf _ w rfl rfl
  ⟨h.1, w, h.2⟩

theorem remWrap (w : Width) : Statement (.remWrap w) :=
  have h := rsv_and_wsel_of_wordOf _ w rfl rfl
  ⟨h.1, w, h.2⟩

theorem remOvf (w : Width) : Statement (.remOvf w) :=
  have h := rsv_and_wsel_of_wordOf _ w rfl rfl
  ⟨h.1, w, h.2⟩

theorem remChk (w : Width) : Statement (.remChk w) :=
  have h := rsv_and_wsel_of_wordOf _ w rfl rfl
  ⟨h.1, w, h.2⟩

theorem remUnchk (w : Width) : Statement (.remUnchk w) :=
  have h := rsv_and_wsel_of_wordOf _ w rfl rfl
  ⟨h.1, w, h.2⟩

theorem remSat (w : Width) : Statement (.remSat w) :=
  have h := rsv_and_wsel_of_wordOf _ w rfl rfl
  ⟨h.1, w, h.2⟩

theorem negWrap (w : Width) : Statement (.negWrap w) :=
  have h := rsv_and_wsel_of_wordOf _ w rfl rfl
  ⟨h.1, w, h.2⟩

theorem negOvf (w : Width) : Statement (.negOvf w) :=
  have h := rsv_and_wsel_of_wordOf _ w rfl rfl
  ⟨h.1, w, h.2⟩

theorem negChk (w : Width) : Statement (.negChk w) :=
  have h := rsv_and_wsel_of_wordOf _ w rfl rfl
  ⟨h.1, w, h.2⟩

theorem negUnchk (w : Width) : Statement (.negUnchk w) :=
  have h := rsv_and_wsel_of_wordOf _ w rfl rfl
  ⟨h.1, w, h.2⟩

theorem negSat (w : Width) : Statement (.negSat w) :=
  have h := rsv_and_wsel_of_wordOf _ w rfl rfl
  ⟨h.1, w, h.2⟩

theorem powWrap (w : Width) : Statement (.powWrap w) :=
  have h := rsv_and_wsel_of_wordOf _ w rfl rfl
  ⟨h.1, w, h.2⟩

theorem powOvf (w : Width) : Statement (.powOvf w) :=
  have h := rsv_and_wsel_of_wordOf _ w rfl rfl
  ⟨h.1, w, h.2⟩

theorem powChk (w : Width) : Statement (.powChk w) :=
  have h := rsv_and_wsel_of_wordOf _ w rfl rfl
  ⟨h.1, w, h.2⟩

theorem powUnchk (w : Width) : Statement (.powUnchk w) :=
  have h := rsv_and_wsel_of_wordOf _ w rfl rfl
  ⟨h.1, w, h.2⟩

theorem powSat (w : Width) : Statement (.powSat w) :=
  have h := rsv_and_wsel_of_wordOf _ w rfl rfl
  ⟨h.1, w, h.2⟩

theorem absdiff (w : Width) : Statement (.absdiff w) :=
  have h := rsv_and_wsel_of_wordOf _ w rfl rfl
  ⟨h.1, w, h.2⟩

theorem rotl (w : Width) : Statement (.rotl w) :=
  have h := rsv_and_wsel_of_wordOf _ w rfl rfl
  ⟨h.1, w, h.2⟩

theorem rotr (w : Width) : Statement (.rotr w) :=
  have h := rsv_and_wsel_of_wordOf _ w rfl rfl
  ⟨h.1, w, h.2⟩

theorem brev (w : Width) : Statement (.brev w) :=
  have h := rsv_and_wsel_of_wordOf _ w rfl rfl
  ⟨h.1, w, h.2⟩

theorem cnt1 (w : Width) : Statement (.cnt1 w) :=
  have h := rsv_and_wsel_of_wordOf _ w rfl rfl
  ⟨h.1, w, h.2⟩

theorem cnt0 (w : Width) : Statement (.cnt0 w) :=
  have h := rsv_and_wsel_of_wordOf _ w rfl rfl
  ⟨h.1, w, h.2⟩

theorem ld1 (w : Width) : Statement (.ld1 w) :=
  have h := rsv_and_wsel_of_wordOf _ w rfl rfl
  ⟨h.1, w, h.2⟩

theorem ld0 (w : Width) : Statement (.ld0 w) :=
  have h := rsv_and_wsel_of_wordOf _ w rfl rfl
  ⟨h.1, w, h.2⟩

theorem tr1 (w : Width) : Statement (.tr1 w) :=
  have h := rsv_and_wsel_of_wordOf _ w rfl rfl
  ⟨h.1, w, h.2⟩

theorem tr0 (w : Width) : Statement (.tr0 w) :=
  have h := rsv_and_wsel_of_wordOf _ w rfl rfl
  ⟨h.1, w, h.2⟩

theorem bswap (w : Width) : Statement (.bswap w) :=
  have h := rsv_and_wsel_of_wordOf _ w rfl rfl
  ⟨h.1, w, h.2⟩

theorem tobe (w : Width) : Statement (.tobe w) :=
  have h := rsv_and_wsel_of_wordOf _ w rfl rfl
  ⟨h.1, w, h.2⟩

theorem tole (w : Width) : Statement (.tole w) :=
  have h := rsv_and_wsel_of_wordOf _ w rfl rfl
  ⟨h.1, w, h.2⟩

theorem frombe (w : Width) : Statement (.frombe w) :=
  have h := rsv_and_wsel_of_wordOf _ w rfl rfl
  ⟨h.1, w, h.2⟩

theorem fromle (w : Width) : Statement (.fromle w) :=
  have h := rsv_and_wsel_of_wordOf _ w rfl rfl
  ⟨h.1, w, h.2⟩

theorem ispow2 (w : Width) : Statement (.ispow2 w) :=
  have h := rsv_and_wsel_of_wordOf _ w rfl rfl
  ⟨h.1, w, h.2⟩

theorem nextpow2 (w : Width) : Statement (.nextpow2 w) :=
  have h := rsv_and_wsel_of_wordOf _ w rfl rfl
  ⟨h.1, w, h.2⟩

theorem ilog (w : Width) : Statement (.ilog w) :=
  have h := rsv_and_wsel_of_wordOf _ w rfl rfl
  ⟨h.1, w, h.2⟩

theorem ilog2 (w : Width) : Statement (.ilog2 w) :=
  have h := rsv_and_wsel_of_wordOf _ w rfl rfl
  ⟨h.1, w, h.2⟩

theorem ilog10 (w : Width) : Statement (.ilog10 w) :=
  have h := rsv_and_wsel_of_wordOf _ w rfl rfl
  ⟨h.1, w, h.2⟩

theorem isqrt (w : Width) : Statement (.isqrt w) :=
  have h := rsv_and_wsel_of_wordOf _ w rfl rfl
  ⟨h.1, w, h.2⟩

end Sys2Proof.Laws.ReservedFieldIsZero
end

