-- ==== Sys2Proof/Laws/State.lean ====
section
/-! SUPPORT. One lemma per field per update of the state, each true by unfolding the update once, so
that no later proof unfolds a record update. -/

namespace Sys2Proof.Machine

@[simp] theorem State.setResponse_params (s : State) (x : Response) : (s.setResponse x).params = s.params := rfl
@[simp] theorem State.setResponse_v16 (s : State) (x : Response) : (s.setResponse x).v16 = s.v16 := rfl
@[simp] theorem State.setResponse_v32 (s : State) (x : Response) : (s.setResponse x).v32 = s.v32 := rfl
@[simp] theorem State.setResponse_v64 (s : State) (x : Response) : (s.setResponse x).v64 = s.v64 := rfl
@[simp] theorem State.setResponse_v128 (s : State) (x : Response) : (s.setResponse x).v128 = s.v128 := rfl
@[simp] theorem State.setResponse_vp (s : State) (x : Response) : (s.setResponse x).vp = s.vp := rfl
@[simp] theorem State.setResponse_ports (s : State) (x : Response) : (s.setResponse x).ports = s.ports := rfl
@[simp] theorem State.setResponse_response (s : State) (x : Response) : (s.setResponse x).response = some x := rfl
@[simp] theorem State.setResponse_pending (s : State) (x : Response) : (s.setResponse x).pending = s.pending := rfl
@[simp] theorem State.setResponse_runFault (s : State) (x : Response) : (s.setResponse x).runFault = s.runFault := rfl
@[simp] theorem State.setResponse_resets (s : State) (x : Response) : (s.setResponse x).resets = s.resets := rfl

@[simp] theorem State.takeAbort_params (s : State) (c : Cause) : (s.takeAbort c).params = s.params := rfl
@[simp] theorem State.takeAbort_v16 (s : State) (c : Cause) : (s.takeAbort c).v16 = s.v16 := rfl
@[simp] theorem State.takeAbort_v32 (s : State) (c : Cause) : (s.takeAbort c).v32 = s.v32 := rfl
@[simp] theorem State.takeAbort_v64 (s : State) (c : Cause) : (s.takeAbort c).v64 = s.v64 := rfl
@[simp] theorem State.takeAbort_v128 (s : State) (c : Cause) : (s.takeAbort c).v128 = s.v128 := rfl
@[simp] theorem State.takeAbort_vp (s : State) (c : Cause) : (s.takeAbort c).vp = s.vp := rfl
@[simp] theorem State.takeAbort_ports (s : State) (c : Cause) : (s.takeAbort c).ports = s.ports := rfl
@[simp] theorem State.takeAbort_response (s : State) (c : Cause) : (s.takeAbort c).response = some (Response.aborted c) := rfl
@[simp] theorem State.takeAbort_pending (s : State) (c : Cause) : (s.takeAbort c).pending = s.pending := rfl
@[simp] theorem State.takeAbort_runFault (s : State) (c : Cause) : (s.takeAbort c).runFault = (match s.runFault with | some first => some first | none => some c) := rfl
@[simp] theorem State.takeAbort_resets (s : State) (c : Cause) : (s.takeAbort c).resets = s.resets := rfl

@[simp] theorem State.latch_params (s : State) (c : Command) (rest : List Event) : (s.latch c rest).params = s.params := rfl
@[simp] theorem State.latch_v16 (s : State) (c : Command) (rest : List Event) : (s.latch c rest).v16 = s.v16 := rfl
@[simp] theorem State.latch_v32 (s : State) (c : Command) (rest : List Event) : (s.latch c rest).v32 = s.v32 := rfl
@[simp] theorem State.latch_v64 (s : State) (c : Command) (rest : List Event) : (s.latch c rest).v64 = s.v64 := rfl
@[simp] theorem State.latch_v128 (s : State) (c : Command) (rest : List Event) : (s.latch c rest).v128 = s.v128 := rfl
@[simp] theorem State.latch_vp (s : State) (c : Command) (rest : List Event) : (s.latch c rest).vp = s.vp := rfl
@[simp] theorem State.latch_ports (s : State) (c : Command) (rest : List Event) : (s.latch c rest).ports = c := rfl
@[simp] theorem State.latch_response (s : State) (c : Command) (rest : List Event) : (s.latch c rest).response = s.response := rfl
@[simp] theorem State.latch_pending (s : State) (c : Command) (rest : List Event) : (s.latch c rest).pending = rest := rfl
@[simp] theorem State.latch_runFault (s : State) (c : Command) (rest : List Event) : (s.latch c rest).runFault = s.runFault := rfl
@[simp] theorem State.latch_resets (s : State) (c : Command) (rest : List Event) : (s.latch c rest).resets = s.resets := rfl

@[simp] theorem State.presentWord_params (s : State) (word : CmdWord) : (s.presentWord word).params = s.params := rfl
@[simp] theorem State.presentWord_v16 (s : State) (word : CmdWord) : (s.presentWord word).v16 = s.v16 := rfl
@[simp] theorem State.presentWord_v32 (s : State) (word : CmdWord) : (s.presentWord word).v32 = s.v32 := rfl
@[simp] theorem State.presentWord_v64 (s : State) (word : CmdWord) : (s.presentWord word).v64 = s.v64 := rfl
@[simp] theorem State.presentWord_v128 (s : State) (word : CmdWord) : (s.presentWord word).v128 = s.v128 := rfl
@[simp] theorem State.presentWord_vp (s : State) (word : CmdWord) : (s.presentWord word).vp = s.vp := rfl
@[simp] theorem State.presentWord_ports (s : State) (word : CmdWord) : (s.presentWord word).ports = s.ports := rfl
@[simp] theorem State.presentWord_response (s : State) (word : CmdWord) : (s.presentWord word).response = s.response := rfl
@[simp] theorem State.presentWord_pending (s : State) (word : CmdWord) : (s.presentWord word).pending = .command { s.ports with cmd := word } :: s.pending := rfl
@[simp] theorem State.presentWord_runFault (s : State) (word : CmdWord) : (s.presentWord word).runFault = s.runFault := rfl
@[simp] theorem State.presentWord_resets (s : State) (word : CmdWord) : (s.presentWord word).resets = s.resets := rfl

@[simp] theorem State.applyReset_params (s : State) (rest : List Event) : (s.applyReset rest).params = s.params := rfl
@[simp] theorem State.applyReset_v16 (s : State) (rest : List Event) : (s.applyReset rest).v16 = Config.resetV16 s.resets := rfl
@[simp] theorem State.applyReset_v32 (s : State) (rest : List Event) : (s.applyReset rest).v32 = Config.resetV32 s.resets := rfl
@[simp] theorem State.applyReset_v64 (s : State) (rest : List Event) : (s.applyReset rest).v64 = Config.resetV64 s.resets := rfl
@[simp] theorem State.applyReset_v128 (s : State) (rest : List Event) : (s.applyReset rest).v128 = Config.resetV128 s.resets := rfl
@[simp] theorem State.applyReset_vp (s : State) (rest : List Event) : (s.applyReset rest).vp = ((Config.resetVP s.resets).setWidth s.params.pw.bits).setWidth 128 := rfl
@[simp] theorem State.applyReset_ports (s : State) (rest : List Event) : (s.applyReset rest).ports = Command.idle := rfl
@[simp] theorem State.applyReset_response (s : State) (rest : List Event) : (s.applyReset rest).response = none := rfl
@[simp] theorem State.applyReset_pending (s : State) (rest : List Event) : (s.applyReset rest).pending = rest := rfl
@[simp] theorem State.applyReset_runFault (s : State) (rest : List Event) : (s.applyReset rest).runFault = s.runFault := rfl
@[simp] theorem State.applyReset_resets (s : State) (rest : List Event) : (s.applyReset rest).resets = s.resets + 1 := rfl

@[simp] theorem State.writeReg_params (s : State) (w : Width) (v : BitVec 128) :
    (s.writeReg w v).params = s.params := by cases w <;> rfl
@[simp] theorem State.writeReg_ports (s : State) (w : Width) (v : BitVec 128) :
    (s.writeReg w v).ports = s.ports := by cases w <;> rfl
@[simp] theorem State.writeReg_response (s : State) (w : Width) (v : BitVec 128) :
    (s.writeReg w v).response = s.response := by cases w <;> rfl
@[simp] theorem State.writeReg_pending (s : State) (w : Width) (v : BitVec 128) :
    (s.writeReg w v).pending = s.pending := by cases w <;> rfl
@[simp] theorem State.writeReg_runFault (s : State) (w : Width) (v : BitVec 128) :
    (s.writeReg w v).runFault = s.runFault := by cases w <;> rfl
@[simp] theorem State.writeReg_resets (s : State) (w : Width) (v : BitVec 128) :
    (s.writeReg w v).resets = s.resets := by cases w <;> rfl

/-- The width in force depends on the parameters alone. -/
theorem State.width_eq (s : State) (w : Width) : s.width w = w.bits s.params.pw := rfl

@[simp] theorem State.setResponse_width (s : State) (x : Response) (w : Width) :
    (s.setResponse x).width w = s.width w := rfl
@[simp] theorem State.takeAbort_width (s : State) (c : Cause) (w : Width) :
    (s.takeAbort c).width w = s.width w := rfl
@[simp] theorem State.latch_width (s : State) (c : Command) (rest : List Event) (w : Width) :
    (s.latch c rest).width w = s.width w := rfl
@[simp] theorem State.presentWord_width (s : State) (word : CmdWord) (w : Width) :
    (s.presentWord word).width w = s.width w := rfl
@[simp] theorem State.applyReset_width (s : State) (rest : List Event) (w : Width) :
    (s.applyReset rest).width w = s.width w := rfl
@[simp] theorem State.writeReg_width (s : State) (w' : Width) (v : BitVec 128) (w : Width) :
    (s.writeReg w' v).width w = s.width w := by cases w' <;> rfl

/-- What the host's placing of a word does. -/
theorem State.withFetchWord_eq (s : State) (nbits w : Nat) :
    s.withFetchWord nbits w = s.presentWord (BitVec.ofNat 32 (w % 2 ^ nbits)) := rfl

end Sys2Proof.Machine
end

