-- ==== Sys2Proof/Tests/Slice0.lean ====
section
/-! SUPPORT. The model's own tests: WellFormed, the decoding of words written out from the encoding of
`30_encoding.md`, refusals by every name, the vectors of `95_test_vectors.md` run through step, and
a witness for every statement that has hypotheses. -/

namespace Sys2Proof.Tests

open Sys2Proof.Machine

/-- A command: word, a, b, c, cin, k. -/
def given (word a b c : Nat) (cin : Bool) (k : Nat) : Command where
  cmd := BitVec.ofNat 32 word
  a := BitVec.ofNat 128 a
  b := BitVec.ofNat 128 b
  c := BitVec.ofNat 128 c
  cin := cin
  k := BitVec.ofNat 32 k

/-- The machine after reset with one register set. -/
def holding (w : Width) (m : Nat) : State := State.reset.writeReg w (BitVec.ofNat 128 m)

/-- The machine after reset on a big-endian host. -/
def bigEndian : State :=
  { State.reset with params := { Config.defaultParams with endian := .be } }

/-- The machine after reset in the permissive mode. -/
def lenient : State :=
  { State.reset with params := { Config.defaultParams with strict := .permissive } }

/-- The machine after reset with another pointer width. -/
def pointer (pw : PtrWidth) : State :=
  { State.reset with params := { Config.defaultParams with pw := pw } }

/-- One step from `s` with this command presented. -/
def stepOn (s : State) (cmd : Command) : Result := step { s with pending := [.command cmd] }

/-- One step from `s` with this command gives this response. -/
def answers (s : State) (word a b c : Nat) (cin : Bool) (k : Nat) (resp : Response) : Bool :=
  match stepOn s (given word a b c cin k) with
  | .next t => t.response == some resp
  | .fault _ => false
  | .refused _ => false

/-- One step from `s` with this command leaves this content in a register. -/
def leaves (s : State) (word a b c : Nat) (cin : Bool) (k : Nat) (w : Width) (m : Nat) : Bool :=
  match stepOn s (given word a b c cin k) with
  | .next t => regNat t w == m
  | .fault _ => false
  | .refused _ => false

/-- `s` with operands on its ports. -/
def onPorts (a b c : Nat) (cin : Bool) (k : Nat) : State :=
  { State.reset with ports := given 0 a b c cin k }

/-! ## WellFormed -/

/-- The check refuses a shape wider than half the value (R65), and takes the widest one. -/
theorem test_wellFormed_refuses_missing_shape :
    (Instr.getswU .w16 .sw16 0).wellFormed .p64 = false ∧
    (Instr.getswS .w32 .sw32 0).wellFormed .p64 = false ∧
    (Instr.setswcU .w64 .sw64 0).wellFormed .p64 = false ∧
    (Instr.setswU .w128 .sw64 0).wellFormed .p64 = true ∧
    (Instr.getswcS .w16 .sw8 255).wellFormed .p64 = true := by
  decide

/-- Under WP the shape depends on PW (R72; T30-32, T30-33). -/
theorem test_wellFormed_depends_on_pw :
    (Instr.getswU .wp .sw32 1).wellFormed .p64 = true ∧
    (Instr.getswU .wp .sw32 1).wellFormed .p128 = true ∧
    (Instr.getswU .wp .sw32 1).wellFormed .p32 = false ∧
    (Instr.getswU .wp .sw32 1).wellFormed .p16 = false ∧
    (Instr.setswS .wp .sw8 0).wellFormed .p16 = true := by
  decide

/-! ## Decoding: words written out from the field table of R60, the formats of R67, the map of R68 -/

theorem test_decode_representation :
    decode .p64 0x00000100 = .ok (.zero .w32) ∧
    decode .p64 0x00000401 = .ok (.setU .wp) ∧
    decode .p64 0x00004201 = .ok (.setS .w64) ∧
    decode .p64 0x00000002 = .ok (.newarrU .w16) ∧
    decode .p64 0x00004302 = .ok (.newarrS .w128) ∧
    decode .p64 0x00000103 = .ok (.getU .w32) ∧
    decode .p64 0x00004403 = .ok (.getS .wp) ∧
    decode .p64 0x00030204 = .ok (.getswU .w64 .sw32 1) ∧
    decode .p64 0x000A4004 = .ok (.getswS .w16 .sw8 5) ∧
    decode .p64 0x00FE8305 = .ok (.getswcU .w128 .sw16 127) ∧
    decode .p64 0x0100C105 = .ok (.getswcS .w32 .sw16 128) ∧
    decode .p64 0x01FF0406 = .ok (.setswU .wp .sw32 255) ∧
    decode .p64 0x00004206 = .ok (.setswS .w64 .sw8 0) ∧
    decode .p64 0x00020007 = .ok (.setswcU .w16 .sw8 1) ∧
    decode .p64 0x000B4307 = .ok (.setswcS .w128 .sw32 5) := by
  decide

theorem test_decode_carry_and_multiply :
    decode .p64 0x00000110 = .ok (.adc .w32) ∧
    decode .p64 0x00000411 = .ok (.sbb .wp) ∧
    decode .p64 0x00000220 = .ok (.mulw .w64) ∧
    decode .p64 0x00000021 = .ok (.mulc .w16) := by
  decide

theorem test_decode_policy_alu_add_sub_mul :
    decode .p64 0x00000330 = .ok (.addWrap .w128) ∧
    decode .p64 0x00000930 = .ok (.addOvf .w32) ∧
    decode .p64 0x00001430 = .ok (.addChk .wp) ∧
    decode .p64 0x00001A30 = .ok (.addUnchk .w64) ∧
    decode .p64 0x00002030 = .ok (.addSat .w16) ∧
    decode .p64 0x00000331 = .ok (.subWrap .w128) ∧
    decode .p64 0x00000931 = .ok (.subOvf .w32) ∧
    decode .p64 0x00001431 = .ok (.subChk .wp) ∧
    decode .p64 0x00001A31 = .ok (.subUnchk .w64) ∧
    decode .p64 0x00002031 = .ok (.subSat .w16) ∧
    decode .p64 0x00000332 = .ok (.mulWrap .w128) ∧
    decode .p64 0x00000932 = .ok (.mulOvf .w32) ∧
    decode .p64 0x00001432 = .ok (.mulChk .wp) ∧
    decode .p64 0x00001A32 = .ok (.mulUnchk .w64) ∧
    decode .p64 0x00002032 = .ok (.mulSat .w16) := by
  decide

theorem test_decode_policy_alu_div_rem :
    decode .p64 0x00000333 = .ok (.divWrap .w128) ∧
    decode .p64 0x00000933 = .ok (.divOvf .w32) ∧
    decode .p64 0x00001433 = .ok (.divChk .wp) ∧
    decode .p64 0x00001A33 = .ok (.divUnchk .w64) ∧
    decode .p64 0x00002033 = .ok (.divSat .w16) ∧
    decode .p64 0x00000334 = .ok (.remWrap .w128) ∧
    decode .p64 0x00000934 = .ok (.remOvf .w32) ∧
    decode .p64 0x00001434 = .ok (.remChk .wp) ∧
    decode .p64 0x00001A34 = .ok (.remUnchk .w64) ∧
    decode .p64 0x00002034 = .ok (.remSat .w16) := by
  decide

theorem test_decode_policy_alu_neg_pow_absdiff :
    decode .p64 0x00000335 = .ok (.negWrap .w128) ∧
    decode .p64 0x00000935 = .ok (.negOvf .w32) ∧
    decode .p64 0x00001435 = .ok (.negChk .wp) ∧
    decode .p64 0x00001A35 = .ok (.negUnchk .w64) ∧
    decode .p64 0x00002035 = .ok (.negSat .w16) ∧
    decode .p64 0x00000336 = .ok (.powWrap .w128) ∧
    decode .p64 0x00000936 = .ok (.powOvf .w32) ∧
    decode .p64 0x00001436 = .ok (.powChk .wp) ∧
    decode .p64 0x00001A36 = .ok (.powUnchk .w64) ∧
    decode .p64 0x00002036 = .ok (.powSat .w16) ∧
    decode .p64 0x00000337 = .ok (.absdiff .w128) := by
  decide

theorem test_decode_bit_utilities :
    decode .p64 0x00000140 = .ok (.rotl .w32) ∧
    decode .p64 0x00000441 = .ok (.rotr .wp) ∧
    decode .p64 0x00000242 = .ok (.brev .w64) ∧
    decode .p64 0x00000043 = .ok (.cnt1 .w16) ∧
    decode .p64 0x00000344 = .ok (.cnt0 .w128) ∧
    decode .p64 0x00000145 = .ok (.ld1 .w32) ∧
    decode .p64 0x00000446 = .ok (.ld0 .wp) ∧
    decode .p64 0x00000247 = .ok (.tr1 .w64) ∧
    decode .p64 0x00000048 = .ok (.tr0 .w16) ∧
    decode .p64 0x00000349 = .ok (.bswap .w128) ∧
    decode .p64 0x0000014A = .ok (.tobe .w32) ∧
    decode .p64 0x0000044B = .ok (.tole .wp) ∧
    decode .p64 0x0000024C = .ok (.frombe .w64) ∧
    decode .p64 0x0000004D = .ok (.fromle .w16) ∧
    decode .p64 0x0000034E = .ok (.ispow2 .w128) ∧
    decode .p64 0x0000014F = .ok (.nextpow2 .w32) := by
  decide

theorem test_decode_log_root :
    decode .p64 0x00000450 = .ok (.ilog .wp) ∧
    decode .p64 0x00000251 = .ok (.ilog2 .w64) ∧
    decode .p64 0x00000052 = .ok (.ilog10 .w16) ∧
    decode .p64 0x00000353 = .ok (.isqrt .w128) := by
  decide

/-- Every name a word can be refused by (R70; T30-5, T30-3, T30-10, T30-15, T30-20, T30-24, T30-26). -/
theorem test_decode_refuses_by_name :
    decode .p64 0x02000010 = .error .reservedNonzero ∧
    decode .p64 0x00000500 = .error .widthReserved ∧
    decode .p64 0x00000038 = .error .opcodeUnassigned ∧
    decode .p64 0x00004010 = .error .unusedFieldNonzero ∧
    decode .p64 0x00020030 = .error .unusedFieldNonzero ∧
    decode .p64 0x00002830 = .error .policyReserved ∧
    decode .p64 0x00008004 = .error .shapeMissing := by
  decide

/-- A WP shape is legal or not with PW (T30-32). -/
theorem test_decode_depends_on_pw :
    decode .p128 0x00030404 = .ok (.getswU .wp .sw32 1) ∧
    decode .p32 0x00030404 = .error .shapeMissing := by
  decide

/-- The encoder and the assembler text (R74; the word of vector S4-5), and an alias of R75. -/
theorem test_encode_and_text :
    encode (.getswU .w32 .sw8 3) = 0x00060104 ∧
    assembly (.getswU .w32 .sw8 3) = "GETSW.U W32, sw8[3]" ∧
    assembly (.addSat .w16) = "ADD.sat W16" ∧
    encode (newZero .w32) = encode (.zero .w32) := by
  decide

/-- The table's words are read by the same decoder, and a placed word is the very next command. -/
theorem test_table_word_is_fetched :
    decodeTableWord 32 0x00000030 = some (.addWrap .w16) ∧
    decodeTableWord 32 0x00000038 = none ∧
    step (State.reset.withFetchWord 32 0x00000049) =
      exec (.bswap .w16) { State.reset with ports := given 0x49 0 0 0 false 0 } :=
  ⟨by decide, by decide, rfl⟩

/-! ## The step -/

/-- An illegal word aborts with cause 0 and changes no register (T60-1, T60-2). -/
theorem test_illegal_word_aborts :
    answers (holding .w16 0xBEEF) 0x00000510 0 0 0 false 0 ⟨0, 0, false, false, true, 0⟩ ∧
    leaves (holding .w16 0xBEEF) 0x00000510 0 0 0 false 0 .w16 0xBEEF ∧
    answers State.reset 0x0000000F 0 0 0 false 0 ⟨0, 0, false, false, true, 0⟩ := by
  decide

/-- VP and V64 are two registers even when PW = 64 (T40-52), and VP has PW bits (R21). -/
theorem test_vp_is_its_own_register :
    leaves (holding .w64 7) 0x00000401 0 0x1122334455667788 0 false 0 .w64 7 ∧
    leaves (pointer .p16) 0x00000401 0 0x12345 0 false 0 .wp 0x2345 := by
  decide

/-- A reset event clears the response and keeps the parameters (R270, R274). -/
theorem test_reset_event :
    (match step { bigEndian with pending := [.reset], response := some Response.absent } with
      | .next t => t.response == none && t.pending == [] && t.params == bigEndian.params
      | .fault _ => false
      | .refused _ => false) = true := by
  rfl

/-! ## The instructions, one theorem each, from `95_test_vectors.md` -/

/-- ZERO: vector S4-6. -/
theorem test_zero :
    answers (holding .w32 0xDEADBEEF) 0x00000100 0 0 0 false 0
      ⟨0, 0, false, true, false, 0⟩ ∧
    leaves (holding .w32 0xDEADBEEF) 0x00000100 0 0 0 false 0 .w32 0x00000000 := by
  decide

/-- SET.U: vectors T40-4, T40-49. -/
theorem test_set_u :
    answers (holding .w16 0xBEEF) 0x00000001 0 0x1BEEF 0 false 0
      ⟨0, 0, false, true, false, 0⟩ ∧
    leaves (holding .w16 0xBEEF) 0x00000001 0 0x1BEEF 0 false 0 .w16 0xBEEF ∧
    answers State.reset 0x00000401 0 0x1122334455667788 0 false 0
      ⟨0, 0, false, true, false, 0⟩ ∧
    leaves State.reset 0x00000401 0 0x1122334455667788 0 false 0 .wp 0x1122334455667788 := by
  decide

/-- SET.S: vector T40-7. -/
theorem test_set_s :
    answers State.reset 0x00004101 0 0xFFFFFFFF 0 false 0
      ⟨0, 0, false, true, false, 0⟩ ∧
    leaves State.reset 0x00004101 0 0xFFFFFFFF 0 false 0 .w32 0xFFFFFFFF := by
  decide

/-- NEWARR.U: vector T40-31. -/
theorem test_newarr_u :
    answers (holding .w16 0xBEEF) 0x00000002 0x1FF 0x201 0 false 0
      ⟨0, 0, false, true, false, 0⟩ ∧
    leaves (holding .w16 0xBEEF) 0x00000002 0x1FF 0x201 0 false 0 .w16 0x01FF := by
  decide

/-- NEWARR.S: vector T40-32. -/
theorem test_newarr_s :
    answers (holding .w32 0x7FFFFFFF) 0x00004102 0xFFFF 0x1 0 false 0
      ⟨0, 0, false, true, false, 0⟩ ∧
    leaves (holding .w32 0x7FFFFFFF) 0x00004102 0xFFFF 0x1 0 false 0 .w32 0x0001FFFF := by
  decide

/-- GET.U: vector T40-5. -/
theorem test_get_u :
    answers (holding .w16 0xBEEF) 0x00000003 0 0 0 false 0
      ⟨48879, 0, false, true, false, 0⟩ := by
  decide

/-- GET.S: vectors T40-6, T40-11. -/
theorem test_get_s :
    answers (holding .w16 0xBEEF) 0x00004003 0 0 0 false 0
      ⟨0xFFFFFFFFFFFFFFFFFFFFFFFFFFFFBEEF, 0, false, true, false, 0⟩ ∧
    answers (holding .w32 0x7FFFFFFF) 0x00004103 0 0 0 false 0
      ⟨0x7FFFFFFF, 0, false, true, false, 0⟩ := by
  decide

/-- GETSW.U: vectors T40-17, T40-16. -/
theorem test_getsw_u :
    answers (holding .w128 0x0123456789ABCDEFFEDCBA9876543210) 0x000E8304 0 0 0 false 0
      ⟨291, 0, false, true, false, 0⟩ ∧
    answers (holding .w128 0x0123456789ABCDEFFEDCBA9876543210) 0x00200304 0 0 0 false 0
      ⟨0, 0, false, false, true, 1⟩ ∧
    leaves (holding .w128 0x0123456789ABCDEFFEDCBA9876543210) 0x00200304 0 0 0 false 0
      .w128 0x0123456789ABCDEFFEDCBA9876543210 := by
  decide

/-- GETSW.S: vectors T40-39, T40-40. -/
theorem test_getsw_s :
    answers (holding .w64 0x80FFFFFF89ABCDEF) 0x000E4204 0 0 0 false 0
      ⟨0xFFFFFFFFFFFFFFFFFFFFFFFFFFFFFF80, 0, false, true, false, 0⟩ ∧
    answers (holding .w64 0x80FFFFFF89ABCDEF) 0x0006C204 0 0 0 false 0
      ⟨0xFFFFFFFFFFFFFFFFFFFFFFFFFFFF80FF, 0, false, true, false, 0⟩ := by
  decide

/-- GETSWC.U: vectors T40-22, T40-23. -/
theorem test_getswc_u :
    answers (holding .w128 0x0123456789ABCDEFFEDCBA9876543210) 0x000E8305 0 0 0 false 0
      ⟨291, 0, false, true, false, 0⟩ ∧
    answers (holding .w128 0x0123456789ABCDEFFEDCBA9876543210) 0x00108305 0 0 0 false 0
      ⟨0, 0, false, false, false, 0⟩ ∧
    leaves (holding .w128 0x0123456789ABCDEFFEDCBA9876543210) 0x00108305 0 0 0 false 0
      .w128 0x0123456789ABCDEFFEDCBA9876543210 := by
  decide

/-- GETSWC.S: vector T40-24. -/
theorem test_getswc_s :
    answers (holding .w128 0x0123456789ABCDEFFEDCBA9876543210) 0x0005C305 0 0 0 false 0
      ⟨0, 0, false, false, false, 0⟩ ∧
    leaves (holding .w128 0x0123456789ABCDEFFEDCBA9876543210) 0x0005C305 0 0 0 false 0
      .w128 0x0123456789ABCDEFFEDCBA9876543210 := by
  decide

/-- SETSW.U: vectors T40-37, T40-42. -/
theorem test_setsw_u :
    answers (holding .w64 0x0123456789ABCDEF) 0x00030206 0 0x1FFFFFFFF 0 false 0
      ⟨0, 0, false, true, false, 0⟩ ∧
    leaves (holding .w64 0x0123456789ABCDEF) 0x00030206 0 0x1FFFFFFFF 0 false 0
      .w64 0xFFFFFFFF89ABCDEF ∧
    answers (holding .w64 0x80FFFFFF89ABCDEF) 0x00100206 0 0x55 0 false 0
      ⟨0, 0, false, false, true, 1⟩ ∧
    leaves (holding .w64 0x80FFFFFF89ABCDEF) 0x00100206 0 0x55 0 false 0
      .w64 0x80FFFFFF89ABCDEF := by
  decide

/-- SETSW.S: vectors T40-28, T40-43. -/
theorem test_setsw_s :
    answers (holding .w128 0x0000000000000000FEDCBA9876543210) 0x0003C306 0 0xFFFFFFFFFFFFFFFF 0 false 0
      ⟨0, 0, false, true, false, 0⟩ ∧
    leaves (holding .w128 0x0000000000000000FEDCBA9876543210) 0x0003C306 0 0xFFFFFFFFFFFFFFFF 0 false 0
      .w128 0xFFFFFFFFFFFFFFFFFEDCBA9876543210 ∧
    answers (holding .w16 0x01FF) 0x00044006 0 0x55 0 false 0
      ⟨0, 0, false, false, true, 1⟩ ∧
    leaves (holding .w16 0x01FF) 0x00044006 0 0x55 0 false 0 .w16 0x01FF := by
  decide

/-- SETSWC.U: vectors T40-44, T40-46. -/
theorem test_setswc_u :
    answers (holding .w16 0x01FF) 0x00020007 0 0xAA 0 false 0
      ⟨0, 0, false, true, false, 0⟩ ∧
    leaves (holding .w16 0x01FF) 0x00020007 0 0xAA 0 false 0 .w16 0xAAFF ∧
    answers (holding .w16 0xAAFF) 0x01FE0007 0 0xAA 0 false 0
      ⟨0, 0, false, false, false, 0⟩ ∧
    leaves (holding .w16 0xAAFF) 0x01FE0007 0 0xAA 0 false 0 .w16 0xAAFF := by
  decide

/-- SETSWC.S: vector T40-47. -/
theorem test_setswc_s :
    answers (holding .w64 0x80FFFFFF89ABCDEF) 0x00014207 0 0x80000000 0 false 0
      ⟨0, 0, false, true, false, 0⟩ ∧
    leaves (holding .w64 0x80FFFFFF89ABCDEF) 0x00014207 0 0x80000000 0 false 0
      .w64 0x80FFFFFF80000000 := by
  decide

/-- ADC: vectors S1-a, S5-2. -/
theorem test_adc :
    answers State.reset 0x00000010 10100 30000 0 false 0
      ⟨40100, 0, false, true, false, 0⟩ ∧
    answers State.reset 0x00000010 0xFFFF 0x0 0 true 0
      ⟨0, 0, true, true, false, 0⟩ := by
  decide

/-- SBB: vectors T41-20, T41-24. -/
theorem test_sbb :
    answers State.reset 0x00000011 0x0 0xFFFF 0 true 0
      ⟨0, 0, true, true, false, 0⟩ ∧
    answers State.reset 0x00000011 5 4 0 true 0
      ⟨0, 0, false, true, false, 0⟩ := by
  decide

/-- MULW: vectors S2-a, T42-4. -/
theorem test_mulw :
    answers State.reset 0x00000020 20000 10000 0 false 0
      ⟨49664, 3051, false, true, false, 0⟩ ∧
    answers State.reset 0x00000020 0xFFFF 0xFFFF 0 false 0
      ⟨1, 65534, false, true, false, 0⟩ := by
  decide

/-- MULC: vectors T42-14, T42-16. -/
theorem test_mulc :
    answers State.reset 0x00000021 0xFFFF 0xFFFF 0xFFFF false 0
      ⟨0, 65535, false, true, false, 0⟩ ∧
    answers State.reset 0x00000021 20000 10000 15872 false 0
      ⟨0, 3052, false, true, false, 0⟩ := by
  decide

/-- ADD.wrap: vectors S3-3, S7-1. -/
theorem test_add_wrap :
    answers State.reset 0x00000030 0xFFFA 0x6 0 false 0
      ⟨0, 0, false, true, false, 0⟩ ∧
    answers State.reset 0x00000030 40000 25535 0 false 0
      ⟨65535, 0, false, true, false, 0⟩ := by
  decide

/-- ADD.ovf: vectors S7-2, S7-6. -/
theorem test_add_ovf :
    answers State.reset 0x00000830 40000 25535 0 false 0
      ⟨65535, 0, false, true, false, 0⟩ ∧
    answers State.reset 0x00000830 40000 25536 0 false 0
      ⟨0, 0, true, true, false, 0⟩ := by
  decide

/-- ADD.chk: vectors S7-3, S7-7. -/
theorem test_add_chk :
    answers State.reset 0x00001030 40000 25535 0 false 0
      ⟨65535, 0, false, true, false, 0⟩ ∧
    answers State.reset 0x00001030 40000 25536 0 false 0
      ⟨0, 0, false, false, false, 0⟩ := by
  decide

/-- ADD.unchk: vectors T43-4, S3-5. -/
theorem test_add_unchk :
    answers State.reset 0x00001830 65535 0 0 false 0
      ⟨65535, 0, false, true, false, 0⟩ ∧
    answers State.reset 0x00001830 0xFFFA 0x6 0 false 0
      ⟨0, 0, false, false, true, 3⟩ := by
  decide

/-- ADD.sat: vectors S7-4, T43-15. -/
theorem test_add_sat :
    answers State.reset 0x00002030 40000 25535 0 false 0
      ⟨65535, 0, false, true, false, 0⟩ ∧
    answers State.reset 0x00002030 65535 65535 0 false 0
      ⟨65535, 0, false, true, false, 0⟩ := by
  decide

/-- SUB.wrap: vector T43-21. -/
theorem test_sub_wrap :
    answers State.reset 0x00000031 0 65535 0 false 0
      ⟨1, 0, false, true, false, 0⟩ := by
  decide

/-- SUB.ovf: vectors T43-17, T43-22. -/
theorem test_sub_ovf :
    answers State.reset 0x00000831 0 0 0 false 0
      ⟨0, 0, false, true, false, 0⟩ ∧
    answers State.reset 0x00000831 0 65535 0 false 0
      ⟨1, 0, true, true, false, 0⟩ := by
  decide

/-- SUB.chk: vectors T43-18, T43-23. -/
theorem test_sub_chk :
    answers State.reset 0x00001031 0 0 0 false 0
      ⟨0, 0, false, true, false, 0⟩ ∧
    answers State.reset 0x00001031 0 65535 0 false 0
      ⟨0, 0, false, false, false, 0⟩ := by
  decide

/-- SUB.unchk: vectors T43-19, T43-24. -/
theorem test_sub_unchk :
    answers State.reset 0x00001831 0 0 0 false 0
      ⟨0, 0, false, true, false, 0⟩ ∧
    answers State.reset 0x00001831 0 65535 0 false 0
      ⟨0, 0, false, false, true, 3⟩ := by
  decide

/-- SUB.sat: vector T43-25. -/
theorem test_sub_sat :
    answers State.reset 0x00002031 0 65535 0 false 0
      ⟨0, 0, false, true, false, 0⟩ := by
  decide

/-- MUL.wrap: vector S2-b. -/
theorem test_mul_wrap :
    answers State.reset 0x00000032 20000 10000 0 false 0
      ⟨49664, 0, false, true, false, 0⟩ := by
  decide

/-- MUL.ovf: vectors T43-27, T43-45. -/
theorem test_mul_ovf :
    answers State.reset 0x00000832 256 255 0 false 0
      ⟨65280, 0, false, true, false, 0⟩ ∧
    answers State.reset 0x00000832 65535 65535 0 false 0
      ⟨1, 0, true, true, false, 0⟩ := by
  decide

/-- MUL.chk: vectors T43-28, T43-46. -/
theorem test_mul_chk :
    answers State.reset 0x00001032 256 255 0 false 0
      ⟨65280, 0, false, true, false, 0⟩ ∧
    answers State.reset 0x00001032 65535 65535 0 false 0
      ⟨0, 0, false, false, false, 0⟩ := by
  decide

/-- MUL.unchk: vectors T43-29, T60-18. -/
theorem test_mul_unchk :
    answers State.reset 0x00001832 256 255 0 false 0
      ⟨65280, 0, false, true, false, 0⟩ ∧
    answers State.reset 0x00001832 256 256 0 false 0
      ⟨0, 0, false, false, true, 3⟩ := by
  decide

/-- MUL.sat: vector T43-48. -/
theorem test_mul_sat :
    answers State.reset 0x00002032 65535 65535 0 false 0
      ⟨65535, 0, false, true, false, 0⟩ := by
  decide

/-- DIV.wrap: vectors T43-79, T43-85. -/
theorem test_div_wrap :
    answers State.reset 0x00000033 7 2 0 false 0
      ⟨3, 0, false, true, false, 0⟩ ∧
    answers State.reset 0x00000033 0x64 0x10000 0 false 0
      ⟨0, 0, false, false, true, 2⟩ := by
  decide

/-- DIV.ovf: vectors T43-70, T60-9. -/
theorem test_div_ovf :
    answers State.reset 0x00000833 65535 65535 0 false 0
      ⟨1, 0, false, true, false, 0⟩ ∧
    answers State.reset 0x00000833 1 0 0 false 0
      ⟨0, 0, false, false, true, 2⟩ := by
  decide

/-- DIV.chk: vectors T43-56, T43-71. -/
theorem test_div_chk :
    answers State.reset 0x00001033 65535 0 0 false 0
      ⟨0, 0, false, false, false, 0⟩ ∧
    answers State.reset 0x00001033 65535 65535 0 false 0
      ⟨1, 0, false, true, false, 0⟩ := by
  decide

/-- DIV.unchk: vectors T43-72, T60-10. -/
theorem test_div_unchk :
    answers State.reset 0x00001833 65535 65535 0 false 0
      ⟨1, 0, false, true, false, 0⟩ ∧
    answers State.reset 0x00001833 1 0 0 false 0
      ⟨0, 0, false, false, true, 2⟩ := by
  decide

/-- DIV.sat: vectors T43-73, T60-11. -/
theorem test_div_sat :
    answers State.reset 0x00002033 65535 65535 0 false 0
      ⟨1, 0, false, true, false, 0⟩ ∧
    answers State.reset 0x00002033 1 0 0 false 0
      ⟨0, 0, false, false, true, 2⟩ := by
  decide

/-- REM.wrap: vectors T43-82, T60-12. -/
theorem test_rem_wrap :
    answers State.reset 0x00000034 6 7 0 false 0
      ⟨6, 0, false, true, false, 0⟩ ∧
    answers State.reset 0x00000034 1 0 0 false 0
      ⟨0, 0, false, false, true, 2⟩ := by
  decide

/-- REM.ovf: vectors T43-75, T60-13. -/
theorem test_rem_ovf :
    answers State.reset 0x00000834 65535 65535 0 false 0
      ⟨0, 0, false, true, false, 0⟩ ∧
    answers State.reset 0x00000834 1 0 0 false 0
      ⟨0, 0, false, false, true, 2⟩ := by
  decide

/-- REM.chk: vectors T43-86, T43-61. -/
theorem test_rem_chk :
    answers State.reset 0x00001034 14 7 0 false 0
      ⟨0, 0, false, true, false, 0⟩ ∧
    answers State.reset 0x00001034 65535 0 0 false 0
      ⟨0, 0, false, false, false, 0⟩ := by
  decide

/-- REM.unchk: vectors T43-77, T60-14. -/
theorem test_rem_unchk :
    answers State.reset 0x00001834 65535 65535 0 false 0
      ⟨0, 0, false, true, false, 0⟩ ∧
    answers State.reset 0x00001834 1 0 0 false 0
      ⟨0, 0, false, false, true, 2⟩ := by
  decide

/-- REM.sat: vectors T43-78, T60-15. -/
theorem test_rem_sat :
    answers State.reset 0x00002034 65535 65535 0 false 0
      ⟨0, 0, false, true, false, 0⟩ ∧
    answers State.reset 0x00002034 1 0 0 false 0
      ⟨0, 0, false, false, true, 2⟩ := by
  decide

/-- NEG.wrap: vector T43-32. -/
theorem test_neg_wrap :
    answers State.reset 0x00000035 0x8000 0 0 false 0
      ⟨32768, 0, false, true, false, 0⟩ := by
  decide

/-- NEG.ovf: vectors T43-35, T43-40. -/
theorem test_neg_ovf :
    answers State.reset 0x00000835 0 0 0 false 0
      ⟨0, 0, false, true, false, 0⟩ ∧
    answers State.reset 0x00000835 65535 0 0 false 0
      ⟨1, 0, true, true, false, 0⟩ := by
  decide

/-- NEG.chk: vectors T43-36, T43-41. -/
theorem test_neg_chk :
    answers State.reset 0x00001035 0 0 0 false 0
      ⟨0, 0, false, true, false, 0⟩ ∧
    answers State.reset 0x00001035 65535 0 0 false 0
      ⟨0, 0, false, false, false, 0⟩ := by
  decide

/-- NEG.unchk: vectors T43-37, T43-42. -/
theorem test_neg_unchk :
    answers State.reset 0x00001835 0 0 0 false 0
      ⟨0, 0, false, true, false, 0⟩ ∧
    answers State.reset 0x00001835 65535 0 0 false 0
      ⟨0, 0, false, false, true, 3⟩ := by
  decide

/-- NEG.sat: vector T43-43. -/
theorem test_neg_sat :
    answers State.reset 0x00002035 65535 0 0 false 0
      ⟨0, 0, false, true, false, 0⟩ := by
  decide

/-- POW.wrap: vectors T43-87, T43-112. -/
theorem test_pow_wrap :
    answers State.reset 0x00000036 0 0 0 false 0
      ⟨1, 0, false, true, false, 0⟩ ∧
    answers State.reset 0x00000036 255 0 0 false 2
      ⟨65025, 0, false, true, false, 0⟩ := by
  decide

/-- POW.ovf: vectors T43-98, T43-103. -/
theorem test_pow_ovf :
    answers State.reset 0x00000836 2 0 0 false 15
      ⟨32768, 0, false, true, false, 0⟩ ∧
    answers State.reset 0x00000836 2 0 0 false 16
      ⟨0, 0, true, true, false, 0⟩ := by
  decide

/-- POW.chk: vectors T43-119, T43-109. -/
theorem test_pow_chk :
    answers State.reset 0x00001036 1 0 0 false 4294967295
      ⟨1, 0, false, true, false, 0⟩ ∧
    answers State.reset 0x00001036 256 0 0 false 2
      ⟨0, 0, false, false, false, 0⟩ := by
  decide

/-- POW.unchk: vectors T43-115, T43-110. -/
theorem test_pow_unchk :
    answers State.reset 0x00001836 255 0 0 false 2
      ⟨65025, 0, false, true, false, 0⟩ ∧
    answers State.reset 0x00001836 256 0 0 false 2
      ⟨0, 0, false, false, true, 3⟩ := by
  decide

/-- POW.sat: vectors T43-101, T43-131. -/
theorem test_pow_sat :
    answers State.reset 0x00002036 2 0 0 false 15
      ⟨32768, 0, false, true, false, 0⟩ ∧
    answers State.reset 0x00002036 65535 0 0 false 2
      ⟨65535, 0, false, true, false, 0⟩ := by
  decide

/-- ABSDIFF: vectors T43-50, T43-51. -/
theorem test_absdiff :
    answers State.reset 0x00000037 0 65535 0 false 0
      ⟨65535, 0, false, true, false, 0⟩ ∧
    answers State.reset 0x00000037 65535 0 0 false 0
      ⟨65535, 0, false, true, false, 0⟩ := by
  decide

/-- ROTL: vectors T44-4, T44-17. -/
theorem test_rotl :
    answers State.reset 0x00000040 0x1234 0 0 false 20
      ⟨9025, 0, false, true, false, 0⟩ ∧
    answers State.reset 0x00000040 0x18001 0 0 false 1
      ⟨3, 0, false, true, false, 0⟩ := by
  decide

/-- ROTR: vector T44-7. -/
theorem test_rotr :
    answers State.reset 0x00000041 0x1234 0 0 false 4
      ⟨16675, 0, false, true, false, 0⟩ := by
  decide

/-- BREV: vector T44-21. -/
theorem test_brev :
    answers State.reset 0x00000042 0xFF 0 0 false 0
      ⟨65280, 0, false, true, false, 0⟩ := by
  decide

/-- CNT1: vector T44-37. -/
theorem test_cnt1 :
    answers State.reset 0x00000043 0x1FFFF 0 0 false 0
      ⟨16, 0, false, true, false, 0⟩ := by
  decide

/-- CNT0: vector T44-27. -/
theorem test_cnt0 :
    answers State.reset 0x00000044 0x0 0 0 false 0
      ⟨16, 0, false, true, false, 0⟩ := by
  decide

/-- LD1: vector T44-41. -/
theorem test_ld1 :
    answers State.reset 0x00000045 0xFFFE 0 0 false 0
      ⟨15, 0, false, true, false, 0⟩ := by
  decide

/-- LD0: vector T44-40. -/
theorem test_ld0 :
    answers State.reset 0x00000146 0xFF 0 0 false 0
      ⟨24, 0, false, true, false, 0⟩ := by
  decide

/-- TR1: vector T44-45. -/
theorem test_tr1 :
    answers State.reset 0x00000047 0x7FFF 0 0 false 0
      ⟨15, 0, false, true, false, 0⟩ := by
  decide

/-- TR0: vector T44-43. -/
theorem test_tr0 :
    answers State.reset 0x00000048 0x8000 0 0 false 0
      ⟨15, 0, false, true, false, 0⟩ := by
  decide

/-- BSWAP: vector T44-53. -/
theorem test_bswap :
    answers State.reset 0x00000049 0x1234 0 0 false 0
      ⟨13330, 0, false, true, false, 0⟩ := by
  decide

/-- TOBE: vectors T44-57, T44-61. -/
theorem test_tobe :
    answers State.reset 0x0000014A 0x12345678 0 0 false 0
      ⟨0x78563412, 0, false, true, false, 0⟩ ∧
    answers bigEndian 0x0000014A 0x12345678 0 0 false 0
      ⟨0x12345678, 0, false, true, false, 0⟩ := by
  decide

/-- TOLE: vectors T44-58, T44-62. -/
theorem test_tole :
    answers State.reset 0x0000014B 0x12345678 0 0 false 0
      ⟨0x12345678, 0, false, true, false, 0⟩ ∧
    answers bigEndian 0x0000014B 0x12345678 0 0 false 0
      ⟨0x78563412, 0, false, true, false, 0⟩ := by
  decide

/-- FROMBE: vectors T44-59, T44-63. -/
theorem test_frombe :
    answers State.reset 0x0000014C 0x12345678 0 0 false 0
      ⟨0x78563412, 0, false, true, false, 0⟩ ∧
    answers bigEndian 0x0000014C 0x12345678 0 0 false 0
      ⟨0x12345678, 0, false, true, false, 0⟩ := by
  decide

/-- FROMLE: vectors T44-60, T44-64. -/
theorem test_fromle :
    answers State.reset 0x0000014D 0x12345678 0 0 false 0
      ⟨0x12345678, 0, false, true, false, 0⟩ ∧
    answers bigEndian 0x0000014D 0x12345678 0 0 false 0
      ⟨0x78563412, 0, false, true, false, 0⟩ := by
  decide

/-- ISPOW2: vectors T44-65, T44-67. -/
theorem test_ispow2 :
    answers State.reset 0x0000004E 0x0 0 0 false 0
      ⟨0, 0, false, true, false, 0⟩ ∧
    answers State.reset 0x0000004E 0x8000 0 0 false 0
      ⟨0, 0, true, true, false, 0⟩ := by
  decide

/-- NEXTPOW2: vectors T44-78, T44-79. -/
theorem test_nextpow2 :
    answers State.reset 0x0000004F 0x8001 0 0 false 0
      ⟨0, 0, false, false, true, 5⟩ ∧
    answers lenient 0x0000004F 0x8001 0 0 false 0
      ⟨0, 0, false, true, false, 0⟩ := by
  decide

/-- ILOG: vectors T45-11, T45-8. -/
theorem test_ilog :
    answers State.reset 0x00000050 243 3 0 false 0
      ⟨5, 0, false, true, false, 0⟩ ∧
    answers State.reset 0x00000050 8 1 0 false 0
      ⟨0, 0, false, false, true, 4⟩ := by
  decide

/-- ILOG2: vectors T45-17, T45-18. -/
theorem test_ilog2 :
    answers State.reset 0x00000051 65535 0 0 false 0
      ⟨15, 0, false, true, false, 0⟩ ∧
    answers State.reset 0x00000051 0 0 0 false 0
      ⟨0, 0, false, false, true, 4⟩ := by
  decide

/-- ILOG10: vectors T45-24, T45-21. -/
theorem test_ilog10 :
    answers State.reset 0x00000052 10000 0 0 false 0
      ⟨4, 0, false, true, false, 0⟩ ∧
    answers State.reset 0x00000052 0 0 0 false 0
      ⟨0, 0, false, false, true, 4⟩ := by
  decide

/-- ISQRT: vector T45-36. -/
theorem test_isqrt :
    answers State.reset 0x00000053 65024 0 0 false 0
      ⟨254, 0, false, true, false, 0⟩ := by
  decide

/-! ## Witnesses: states and operands that meet the hypotheses of each statement -/

theorem test_witness_DecodeOfEncodeIsTheInstruction :
    (Instr.getswU .wp .sw32 255).wellFormed .p64 = true ∧
    (Instr.setswS .w128 .sw64 0).wellFormed .p16 = true := by
  decide

theorem test_witness_DecodedWordIsItsEncoding :
    decode .p64 0x0002C104 = .ok (.getswS .w32 .sw16 1) ∧
    decode .p64 0x01FE0004 = .ok (.getswU .w16 .sw8 255) := by
  decide

/-- One word for each of the six items of R70 (T30-5, T30-3, T30-10, T30-14, T30-15, T30-16, T30-24,
T30-26), the first one also pending. -/
theorem test_witness_IllegalWordsAreThoseOfTheSixItems :
    illegalWord .p64 0x02000010 ∧ illegalWord .p64 0x00000500 ∧ illegalWord .p64 0x00000038 ∧
    illegalWord .p64 0x00000810 ∧ illegalWord .p64 0x00004010 ∧ illegalWord .p64 0x00008020 ∧
    illegalWord .p64 0x00002830 ∧ illegalWord .p64 0x00008004 ∧
    ¬ illegalWord .p64 0x00002030 ∧ ¬ illegalWord .p64 0x00018304 ∧
    ({ State.reset with pending := [.command (given 0x02000010 0 0 0 false 0)] } : State).pending =
      .command (given 0x02000010 0 0 0 false 0) :: [] := by
  refine ⟨?_, ?_, ?_, ?_, ?_, ?_, ?_, ?_, ?_, ?_, rfl⟩ <;>
  · simp only [illegalWord]
    decide

theorem test_witness_StepRunsTheDecodedCommand :
    let s := { State.reset with pending := [.command (given 0x30 1 2 0 false 0), .reset] }
    s.pending = .command (given 0x30 1 2 0 false 0) :: [.reset] ∧
    decode s.params.pw (given 0x30 1 2 0 false 0).cmd = .ok (.addWrap .w16) := by
  decide

theorem test_witness_NothingHappensWithoutAnEvent : State.reset.pending = [] := by
  decide

theorem test_witness_ResetEventKeepsParametersAndAbortRecordDropsResponse :
    ({ State.reset with pending := [.reset] } : State).pending = .reset :: [] := by
  decide

/-- A good state with the pointer register full, and its next state under a command that aborts. -/
theorem test_witness_EveryStepKeepsTheInvariant :
    let s := { holding .wp (2 ^ 64 - 1) with pending := [.command (given 0x33 1 0 0 false 0)] }
    s.good = true ∧ ∃ t, step s = .next t ∧ t.params = s.params := by
  exact ⟨by decide, _, rfl, rfl⟩

theorem test_witness_NoStepChangesTheParameters :
    ∃ t, step { lenient with pending := [.command (given 0x33 1 0 0 false 0)] } = .next t :=
  ⟨_, rfl⟩

/-- One state with no abort on record whose command aborts, and one with an abort on record. -/
theorem test_witness_ARunFaultIsNeverCleared :
    (let s := { State.reset with pending := [.command (given 0x33 1 0 0 false 0)] };
      s.runFault = none ∧ ∃ t, step s = .next t ∧ t.runFault = some .divZero) ∧
    (let s := { State.reset with
        pending := [.command (given 0x33 1 0 0 false 0)], runFault := some .overflow };
      s.runFault = some .overflow ∧ ∃ t, step s = .next t) :=
  ⟨⟨rfl, _, rfl, rfl⟩, rfl, _, rfl⟩

theorem test_witness_OnlyFamilyZeroWritersTouchARegister :
    Width.w64 ≠ selOf (.setU .wp) ∧ writesReg (.getU .w16) = false ∧
    writesReg (.setU .w16) = true := by
  decide

/-- Two states that differ in registers and history alone. -/
theorem test_witness_ArithmeticAnswersDependOnParametersAndCommandAlone :
    familyOf (.mulc .w16) ≠ 0 ∧ (holding .w16 1).params = State.reset.params ∧
    (holding .w16 1).ports = State.reset.ports ∧ holding .w16 1 ≠ State.reset := by
  decide

/-- Two commands that differ just above the width, and in a port the instruction does not read. -/
theorem test_witness_OnlyTheNamedPortBitsAreRead :
    SameOperands .p64 (.addWrap .w16) (given 0 0x1FFFF 5 7 true 3)
      (given 0 0xFFFF 0x10005 0 false 0) ∧
    SameOperands .p64 (.newarrU .w16) (given 0 0x1FF 2 0 false 0) (given 0 0xFF 0x102 0 false 0) ∧
    SameOperands .p64 (.rotl .w16) (given 0 1 2 0 false 4) (given 0 0x10001 0 0 false 4) := by
  unfold SameOperands
  decide

/-- Each cause of the table at a boundary, its neighbour that does not abort, and a word that does not
decode. -/
theorem test_witness_AbortsAreExactlyThoseOfTheTable :
    abortCause State.reset (.getswU .w16 .sw8 2) = some .idxRange ∧
    abortCause State.reset (.getswU .w16 .sw8 1) = none ∧
    abortCause (onPorts 1 0x10000 0 false 0) (.divSat .w16) = some .divZero ∧
    abortCause (onPorts 1 1 0 false 0) (.divSat .w16) = none ∧
    abortCause (onPorts 0xFFFF 1 0 false 0) (.addUnchk .w16) = some .overflow ∧
    abortCause (onPorts 0xFFFF 0 0 false 0) (.addUnchk .w16) = none ∧
    abortCause (onPorts 2 1 0 false 0) (.ilog .w16) = some .logDomain ∧
    abortCause (onPorts 1 2 0 false 0) (.ilog .w16) = none ∧
    abortCause (onPorts 0x8001 0 0 false 0) (.nextpow2 .w16) = some .pow2Range ∧
    abortCause (onPorts 0x8000 0 0 false 0) (.nextpow2 .w16) = none ∧
    decode .p64 (given 0x54 0 0 0 false 0).cmd = .error .opcodeUnassigned ∧
    ({ State.reset with pending := [.command (given 0x54 0 0 0 false 0)] } : State).pending =
      .command (given 0x54 0 0 0 false 0) :: [] := by
  decide

theorem test_witness_ListedCommandsNeverAbort :
    neverAborts State.reset.params.strict (.divChk .w16) = true ∧
    neverAborts lenient.params.strict (.nextpow2 .w16) = true ∧
    neverAborts State.reset.params.strict (.nextpow2 .w16) = false := by
  decide

/-- The last index in range and the first out of range, for the smallest and the largest array, and
the largest index of all; for the four statements on sub-word commands. -/
theorem test_witness_sub_word_commands :
    shapeExists State.reset.params.pw .w16 .sw8 = true ∧
    shapeExists State.reset.params.pw .w128 .sw8 = true ∧
    (1 : BitVec 8).toNat < State.reset.width .w16 / SubWidth.sw8.bits ∧
    ¬ (2 : BitVec 8).toNat < State.reset.width .w16 / SubWidth.sw8.bits ∧
    (15 : BitVec 8).toNat < State.reset.width .w128 / SubWidth.sw8.bits ∧
    ¬ (16 : BitVec 8).toNat < State.reset.width .w128 / SubWidth.sw8.bits ∧
    ¬ (255 : BitVec 8).toNat < State.reset.width .w128 / SubWidth.sw8.bits := by
  decide

theorem test_witness_SubWordsRoundTrip :
    shapeExists State.reset.params.pw .wp .sw32 = true ∧
    (holding .w32 0xDEADBEEF).params = State.reset.params := by
  decide

theorem test_witness_SubWordWriteChangesExactlyItsBits :
    shapeExists State.reset.params.pw .w64 .sw32 = true ∧
    (1 : BitVec 8).toNat < State.reset.width .w64 / SubWidth.sw32.bits ∧
    Instr.setswcS .w64 .sw32 1 ∈ [Instr.setswU .w64 .sw32 1, .setswS .w64 .sw32 1,
      .setswcU .w64 .sw32 1, .setswcS .w64 .sw32 1] := by
  decide

theorem test_witness_SubWordsSitAtTheirPhysicalPosition :
    shapeExists .p64 .w32 .sw16 = true ∧ 1 < Width.w32.bits .p64 / SubWidth.sw16.bits := by
  decide

/-- The first iteration, with the accumulator still zero, and the last one. -/
theorem test_witness_MulStepKeepsTheLoopInvariant :
    (15 < 16 ∧ (0 : BitVec 16).toNat * 2 ^ 16 + (0 : BitVec 16).toNat =
      (3 : BitVec 16).toNat * ((5 : BitVec 16).toNat / 2 ^ (15 + 1))) ∧
    (0 < 16 ∧ (0 : BitVec 16).toNat * 2 ^ 16 + (6 : BitVec 16).toNat =
      (3 : BitVec 16).toNat * ((5 : BitVec 16).toNat / 2 ^ (0 + 1))) := by
  decide

theorem test_witness_ChainedMulcMultipliesByOneLimb :
    (portOf 0xFFFF).toNat < 2 ^ State.reset.width .w16 := by
  decide

/-- The exact sum at `MAX_n` and one above (R8). -/
theorem test_witness_AddUnderTheFivePolicies :
    (let s := onPorts 0xFFFF 0 0 false 0;
      low s.ports.a (s.width .w16) + low s.ports.b (s.width .w16) ≤ 2 ^ s.width .w16 - 1) ∧
    (let s := onPorts 0xFFFF 1 0 false 0;
      ¬ low s.ports.a (s.width .w16) + low s.ports.b (s.width .w16) ≤ 2 ^ s.width .w16 - 1) := by
  decide

/-- The exact difference at 0 and one below. -/
theorem test_witness_SubUnderTheFivePolicies :
    (let s := onPorts 5 5 0 false 0;
      low s.ports.b (s.width .w16) ≤ low s.ports.a (s.width .w16)) ∧
    (let s := onPorts 5 6 0 false 0;
      low s.ports.a (s.width .w16) < low s.ports.b (s.width .w16)) := by
  decide

/-- The exact product at `MAX_n` and one above. -/
theorem test_witness_MulUnderTheFivePolicies :
    (let s := onPorts 255 257 0 false 0;
      low s.ports.a (s.width .w16) * low s.ports.b (s.width .w16) ≤ 2 ^ s.width .w16 - 1) ∧
    (let s := onPorts 256 256 0 false 0;
      ¬ low s.ports.a (s.width .w16) * low s.ports.b (s.width .w16) ≤ 2 ^ s.width .w16 - 1) := by
  decide

/-- A divisor of 1 and a port that is 0 below the width alone, for DIV, REM and R190. -/
theorem test_witness_divisors :
    (let s := onPorts 7 1 0 false 0;
      low s.ports.b (s.width .w16) ≠ 0) ∧
    (let s := onPorts 7 0x10000 0 false 0;
      low s.ports.b (s.width .w16) = 0) := by
  decide

theorem test_witness_NegUnderTheFivePolicies :
    (let s := onPorts 0x10000 0 0 false 0;
      low s.ports.a (s.width .w16) = 0) ∧
    (let s := onPorts 1 0 0 false 0;
      low s.ports.a (s.width .w16) ≠ 0) := by
  decide

theorem test_witness_PowUnderTheFivePolicies :
    (let s := onPorts 2 0 0 false 15;
      low s.ports.a (s.width .w16) ^ s.ports.k.toNat ≤ 2 ^ s.width .w16 - 1) ∧
    (let s := onPorts 2 0 0 false 16;
      ¬ low s.ports.a (s.width .w16) ^ s.ports.k.toNat ≤ 2 ^ s.width .w16 - 1) := by
  decide

theorem test_witness_PowIsTheStepwisePower :
    (powc 16 2 15).2 = false ∧ (powc 16 2 16).2 = true := by
  decide

/-- A division with a divisor, and a sum that does and one that does not overflow. -/
theorem test_witness_PoliciesAreConsistent :
    (let s := onPorts 7 2 0 false 0;
      (AluOp.div = .div ∨ AluOp.div = .rem) → low s.ports.b (s.width .w16) ≠ 0) ∧
    flagOf (exec (aluInstr .add .ovf .w16) (onPorts 0xFFFF 1 0 false 0)) = some true ∧
    flagOf (exec (aluInstr .add .ovf .w16) (onPorts 0xFFFF 0 0 false 0)) = some false := by
  decide

theorem test_witness_ByteOrderConversionsFollowEndian :
    resultOf (exec (.tobe .w16) (onPorts 0x1234 0 0 false 0)) = some (portOf 0x3412) ∧
    resultOf (exec (.tole .w16) (onPorts 0x1234 0 0 false 0)) = some (portOf 0x1234) := by
  decide

/-- The largest answer, one above it in the strict mode, one above it in the permissive mode. -/
theorem test_witness_NextPowTwoRoundsUpAbortsOrWraps :
    (let s := onPorts 0x8000 0 0 false 0;
      low s.ports.a (s.width .w16) ≤ 2 ^ (s.width .w16 - 1)) ∧
    (let s := onPorts 0x8001 0 0 false 0;
      2 ^ (s.width .w16 - 1) < low s.ports.a (s.width .w16) ∧ s.params.strict = .strict) ∧
    (let s := { lenient with ports := given 0 0x8001 0 0 false 0 };
      2 ^ (s.width .w16 - 1) < low s.ports.a (s.width .w16) ∧
        s.params.strict = .permissive) := by
  decide

/-- The least legal value and base, a zero value, a base of 1. -/
theorem test_witness_IlogIsTheFloorLogarithm :
    (let s := onPorts 1 2 0 false 0;
      low s.ports.a (s.width .w16) ≠ 0 ∧ 2 ≤ low s.ports.b (s.width .w16)) ∧
    (let s := onPorts 0 2 0 false 0;
      low s.ports.a (s.width .w16) = 0) ∧
    (let s := onPorts 1 1 0 false 0;
      low s.ports.a (s.width .w16) = 0 ∨ low s.ports.b (s.width .w16) < 2) := by
  decide

theorem test_witness_IlogTwoIsTheHighestSetBit :
    (let s := onPorts 1 0 0 false 0;
      low s.ports.a (s.width .w16) ≠ 0) ∧
    (let s := onPorts 0x10000 0 0 false 0;
      low s.ports.a (s.width .w16) = 0) := by
  decide

/-- An absent answer (7 / 0, checked) and an abort (7 / 0, wrapping) have no result, and an abort has
no flag (R249 b, U14; R243). -/
theorem test_no_result_without_a_value :
    resultOf (exec (.divChk .w16) (onPorts 7 0 0 false 0)) = none ∧
    resultOf (exec (.divWrap .w16) (onPorts 7 0 0 false 0)) = none ∧
    flagOf (exec (.divWrap .w16) (onPorts 7 0 0 false 0)) = none ∧
    resultOf (exec (.divChk .w16) (onPorts 7 2 0 false 0)) = some 3 := by
  decide

end Sys2Proof.Tests
end

section
/-! The registers at reset, what one step does, one equation per event (R11, R30), and that every
command answers a next state. -/

namespace Sys2Proof.Machine

/-- Every value register reads zero in the reset state (log entry 1). -/
theorem regNat_reset (w : Width) : regNat State.reset w = 0 := by
  cases w <;> rfl

/-- A command whose word decodes is executed. -/
theorem runCommand_of_decode {s : State} {i : Instr}
    (h : decode s.params.pw s.ports.cmd = .ok i) : runCommand s = exec i s := by
  simp only [runCommand, h]

/-- A command whose word does not decode aborts with ILLEGAL (R241). -/
theorem runCommand_of_reject {s : State} {e : Reject}
    (h : decode s.params.pw s.ports.cmd = .error e) :
    runCommand s = .next (s.takeAbort .illegal) := by
  simp only [runCommand, h]

/-- With no event pending a step is idle (R250). -/
theorem step_of_idle {s : State} (h : s.pending = []) : step s = .next s := by
  simp only [step, h]

/-- A step takes the first pending command: its ports are sampled and it runs (R277). -/
theorem step_of_command {s : State} {c : Command} {rest : List Event}
    (h : s.pending = .command c :: rest) : step s = runCommand (s.latch c rest) := by
  simp only [step, h]

/-- A step takes the first pending reset event (R270). -/
theorem step_of_reset {s : State} {rest : List Event} (h : s.pending = .reset :: rest) :
    step s = .next (s.applyReset rest) := by
  simp only [step, h]

/-- However an instruction ends, it ends in a next state. -/
theorem Ends.exists_next {x : Result} {i : Instr} {s : State} (h : Ends x i s) :
    ∃ t, x = .next t := by
  obtain ⟨_, -, hx⟩ | ⟨_, hx⟩ | ⟨-, _, hx⟩ := h <;> exact ⟨_, hx⟩

/-- Every command, legal or not, runs to a next state (R249 c, R278). -/
theorem runCommand_exists_next (s : State) : ∃ t, runCommand s = .next t := by
  cases h : decode s.params.pw s.ports.cmd with
  | ok i => exact runCommand_of_decode h ▸ (exec_ends i s).exists_next
  | error e => exact ⟨_, runCommand_of_reject h⟩

end Sys2Proof.Machine
end

section
/-! Noninterference of families 1 to 5 (R11, R26, R33): each of their commands ends with an answer that
is computed from the parameters and the command alone. -/

namespace Sys2Proof.Machine

/-- All that families 1 to 5 may read of a state: the parameters and the command on the ports, with
the registers, the earlier response and the abort record forgotten. -/
def State.commandOnly (s : State) : State :=
  { State.reset with params := s.params, ports := s.ports }

/-- Two states with the same parameters and the same command are one when all else is forgotten. -/
theorem State.commandOnly_congr {s s' : State} (hparams : s.params = s'.params)
    (hports : s.ports = s'.ports) : s.commandOnly = s'.commandOnly := by
  simp only [State.commandOnly, hparams, hports]

/-- The response an answer puts on the ports. -/
def Answer.response : Answer → Response
  | .done resp => resp
  | .abort c => Response.aborted c

/-- Ending with an answer gives its response, whatever the state. -/
theorem answer_response (s : State) (x : Answer) :
    ∃ t, s.answer x = .next t ∧ t.response = some x.response := by
  cases x with
  | done resp => exact ⟨_, rfl, rfl⟩
  | abort c => exact ⟨_, rfl, rfl⟩

/-- The instruction ends with an answer, hence touches no register, and the answer is a function of
the parameters and the command. -/
def AnswersFromCommand (i : Instr) : Prop :=
  ∃ f : State → Answer, ∀ s, exec i s = s.answer (f s.commandOnly)

/-- What each case below turns on: an arm of `exec` that ends with an answer, where the answer stays
the same when all but the parameters and the command is forgotten. -/
theorem AnswersFromCommand.of_exec_eq {i : Instr} {f : State → Answer}
    (hexec : ∀ s, exec i s = s.answer (f s))
    (hreads : ∀ s, f s = f s.commandOnly := by exact fun _ => rfl) : AnswersFromCommand i :=
  ⟨f, fun s => hreads s ▸ hexec s⟩

/-- Every instruction outside family 0 answers from its command alone. -/
theorem answersFromCommand_of_family {i : Instr} (h : familyOf i ≠ 0) : AnswersFromCommand i := by
  cases i with
  | zero | setU | setS | newarrU | newarrS | getU | getS | getswU | getswS | getswcU | getswcS
  | setswU | setswS | setswcU | setswcS => exact absurd rfl h
  | adc w => exact .of_exec_eq (exec_adc w)
  | sbb w => exact .of_exec_eq (exec_sbb w)
  | mulw w => exact .of_exec_eq (exec_mulw w)
  | mulc w => exact .of_exec_eq (exec_mulc w)
  | addWrap w => exact .of_exec_eq (exec_addWrap w)
  | addOvf w => exact .of_exec_eq (exec_addOvf w)
  | addChk w => exact .of_exec_eq (exec_addChk w)
  | addUnchk w => exact .of_exec_eq (exec_addUnchk w)
  | addSat w => exact .of_exec_eq (exec_addSat w)
  | subWrap w => exact .of_exec_eq (exec_subWrap w)
  | subOvf w => exact .of_exec_eq (exec_subOvf w)
  | subChk w => exact .of_exec_eq (exec_subChk w)
  | subUnchk w => exact .of_exec_eq (exec_subUnchk w)
  | subSat w => exact .of_exec_eq (exec_subSat w)
  | mulWrap w => exact .of_exec_eq (exec_mulWrap w)
  | mulOvf w => exact .of_exec_eq (exec_mulOvf w)
  | mulChk w => exact .of_exec_eq (exec_mulChk w)
  | mulUnchk w => exact .of_exec_eq (exec_mulUnchk w)
  | mulSat w => exact .of_exec_eq (exec_mulSat w)
  | divWrap w => exact .of_exec_eq (exec_divWrap w)
  | divOvf w => exact .of_exec_eq (exec_divOvf w)
  | divChk w => exact .of_exec_eq (exec_divChk w)
  | divUnchk w => exact .of_exec_eq (exec_divUnchk w)
  | divSat w => exact .of_exec_eq (exec_divSat w)
  | remWrap w => exact .of_exec_eq (exec_remWrap w)
  | remOvf w => exact .of_exec_eq (exec_remOvf w)
  | remChk w => exact .of_exec_eq (exec_remChk w)
  | remUnchk w => exact .of_exec_eq (exec_remUnchk w)
  | remSat w => exact .of_exec_eq (exec_remSat w)
  | negWrap w => exact .of_exec_eq (exec_negWrap w)
  | negOvf w => exact .of_exec_eq (exec_negOvf w)
  | negChk w => exact .of_exec_eq (exec_negChk w)
  | negUnchk w => exact .of_exec_eq (exec_negUnchk w)
  | negSat w => exact .of_exec_eq (exec_negSat w)
  | powWrap w => exact .of_exec_eq (exec_powWrap w)
  | powOvf w => exact .of_exec_eq (exec_powOvf w)
  | powChk w => exact .of_exec_eq (exec_powChk w)
  | powUnchk w => exact .of_exec_eq (exec_powUnchk w)
  | powSat w => exact .of_exec_eq (exec_powSat w)
  | absdiff w => exact .of_exec_eq (exec_absdiff w)
  | rotl w => exact .of_exec_eq (exec_rotl w)
  | rotr w => exact .of_exec_eq (exec_rotr w)
  | brev w => exact .of_exec_eq (exec_brev w)
  | cnt1 w => exact .of_exec_eq (exec_cnt1 w)
  | cnt0 w => exact .of_exec_eq (exec_cnt0 w)
  | ld1 w => exact .of_exec_eq (exec_ld1 w)
  | ld0 w => exact .of_exec_eq (exec_ld0 w)
  | tr1 w => exact .of_exec_eq (exec_tr1 w)
  | tr0 w => exact .of_exec_eq (exec_tr0 w)
  | bswap w => exact .of_exec_eq (exec_bswap w)
  | tobe w => exact .of_exec_eq (exec_tobe w)
  | tole w => exact .of_exec_eq (exec_tole w)
  | frombe w => exact .of_exec_eq (exec_frombe w)
  | fromle w => exact .of_exec_eq (exec_fromle w)
  | ispow2 w => exact .of_exec_eq (exec_ispow2 w)
  | nextpow2 w => exact .of_exec_eq (exec_nextpow2 w)
  | ilog w => exact .of_exec_eq (exec_ilog w)
  | ilog2 w => exact .of_exec_eq (exec_ilog2 w)
  | ilog10 w => exact .of_exec_eq (exec_ilog10 w)
  | isqrt w => exact .of_exec_eq (exec_isqrt w)

/-- Two states with the same parameters and command are given the same response by an instruction
that answers from its command. -/
theorem AnswersFromCommand.same_response {i : Instr} (hi : AnswersFromCommand i) {s s' : State}
    (h : s.commandOnly = s'.commandOnly) :
    ∃ t t', exec i s = .next t ∧ exec i s' = .next t' ∧ t.response = t'.response := by
  obtain ⟨f, hf⟩ := hi
  obtain ⟨t, ht, hresp⟩ := answer_response s (f s.commandOnly)
  obtain ⟨t', ht', hresp'⟩ := answer_response s' (f s'.commandOnly)
  refine ⟨t, t', (hf s).trans ht, (hf s').trans ht', ?_⟩
  rw [hresp, hresp', h]

end Sys2Proof.Machine
end

section
/-! The obligations of the scope chapter (`00_scope.md`). -/

namespace Sys2Proof.Machine

/-- Settles O15: outside family 0 the answer is a function of the parameters and the command. -/
theorem arithmeticAnswersDependOnParametersAndCommandAlone :
    Obligations.ArithmeticAnswersDependOnParametersAndCommandAlone := by
  unfold Obligations.ArithmeticAnswersDependOnParametersAndCommandAlone
  intro i s s' hfamily hparams hports
  exact (answersFromCommand_of_family hfamily).same_response
    (State.commandOnly_congr hparams hports)

/-- Settles O9, by the event the step takes. -/
theorem everyStepAnswersANextState : Obligations.EveryStepAnswersANextState := by
  unfold Obligations.EveryStepAnswersANextState
  intro s
  match h : s.pending with
  | [] => exact ⟨_, step_of_idle h⟩
  | .command c :: rest => exact step_of_command h ▸ runCommand_exists_next (s.latch c rest)
  | .reset :: rest => exact ⟨_, step_of_reset h⟩

/-- Settles O5: the step latches the command, whose word is the one that decodes. -/
theorem stepRunsTheDecodedCommand : Obligations.StepRunsTheDecodedCommand := by
  unfold Obligations.StepRunsTheDecodedCommand
  intro s c rest i hpending hdecode
  have hlatched : decode (s.latch c rest).params.pw (s.latch c rest).ports.cmd = .ok i := by
    simpa using hdecode
  calc step s = runCommand (s.latch c rest) := step_of_command hpending
    _ = exec i (s.latch c rest) := runCommand_of_decode hlatched

/-- Settles O8: each field of the reset state is as it was written, and each register reads zero. -/
theorem resetStateIsReadyAndClean : Obligations.ResetStateIsReadyAndClean := by
  unfold Obligations.ResetStateIsReadyAndClean
  exact ⟨rfl, rfl, rfl, rfl, rfl, rfl, regNat_reset⟩

end Sys2Proof.Machine
end

section
/-! What one step can do, once: it idles, runs the command it latched, or resets; and a command gives a
response, takes an abort or writes one register. The two invariants of every step follow. -/

namespace Sys2Proof.Machine

/-- Everything a step can do, by the event it takes. -/
theorem step_cases {s t : State} (h : step s = .next t) :
    t = s ∨ (∃ c rest, runCommand (s.latch c rest) = .next t) ∨ ∃ rest, t = s.applyReset rest := by
  match hp : s.pending with
  | [] =>
    rw [step_of_idle hp, Host.Outcome.next.injEq] at h
    exact .inl h.symm
  | .command c :: rest => exact .inr (.inl ⟨c, rest, step_of_command hp ▸ h⟩)
  | .reset :: rest =>
    rw [step_of_reset hp, Host.Outcome.next.injEq] at h
    exact .inr (.inr ⟨rest, h.symm⟩)

/-- Everything a command, legal or not, can do. -/
theorem runCommand_cases {s t : State} (h : runCommand s = .next t) :
    (∃ resp, (Answer.done resp).good = true ∧ t = s.setResponse resp) ∨
    (∃ c, t = s.takeAbort c) ∨
    ∃ w v, t = (s.writeReg w v).setResponse Response.done := by
  cases hd : decode s.params.pw s.ports.cmd with
  | error e =>
    rw [runCommand_of_reject hd, Host.Outcome.next.injEq] at h
    exact .inr (.inl ⟨_, h.symm⟩)
  | ok i =>
    rw [runCommand_of_decode hd] at h
    obtain ⟨resp, hgood, hx⟩ | ⟨c, hx⟩ | ⟨-, v, hx⟩ := exec_ends i s <;>
      rw [hx, Host.Outcome.next.injEq] at h
    · exact .inl ⟨resp, hgood, h.symm⟩
    · exact .inr (.inl ⟨c, h.symm⟩)
    · exact .inr (.inr ⟨selOf i, v, h.symm⟩)

/-- The invariant, part by part. -/
theorem State.good_iff (s : State) :
    s.good = true ↔ s.vp.toNat < 2 ^ s.params.pw.bits ∧
      ∀ x, s.response = some x → x.good = true ∧ (x.abort = true → s.runFault.isSome = true) := by
  cases hx : s.response with
  | none => simp [State.good, hx]
  | some x => cases ha : x.abort <;> simp [State.good, hx, ha]

/-- A number cut to the pointer width is below its power of two. -/
theorem ptrCut_lt (pw : PtrWidth) (v : BitVec 128) :
    ((v.setWidth pw.bits).setWidth 128).toNat < 2 ^ pw.bits := by
  rw [BitVec.toNat_setWidth]
  exact (Nat.mod_le _ _).trans_lt (v.setWidth pw.bits).isLt

/-- A register write keeps VP within the pointer width (R21). -/
theorem vp_writeReg_lt {s : State} (h : s.vp.toNat < 2 ^ s.params.pw.bits) (w : Width)
    (v : BitVec 128) : (s.writeReg w v).vp.toNat < 2 ^ s.params.pw.bits := by
  cases w with
  | wp => exact ptrCut_lt _ _
  | w16 | w32 | w64 | w128 => exact h

/-- Giving a good response that is no abort gives a good state, whatever response was there. -/
theorem good_setResponse {s : State} (hvp : s.vp.toNat < 2 ^ s.params.pw.bits) {resp : Response}
    (hresp : (Answer.done resp).good = true) : (s.setResponse resp).good = true := by
  obtain ⟨hgood, habort⟩ : resp.good = true ∧ resp.abort = false := by
    simpa [Answer.good] using hresp
  simp [State.good_iff, hvp, hgood, habort]

/-- An abort response is well formed (R240, R249). -/
theorem good_aborted (c : Cause) : (Response.aborted c).good = true := by
  cases c <;> rfl

/-- Taking an abort gives a good state, whatever response was there. -/
theorem good_takeAbort {s : State} (hvp : s.vp.toNat < 2 ^ s.params.pw.bits) (c : Cause) :
    (s.takeAbort c).good = true := by
  have hrecord : (s.takeAbort c).runFault.isSome = true := by
    cases h : s.runFault <;> simp [h]
  rw [State.good_iff]
  refine ⟨hvp, fun x hx => ?_⟩
  obtain rfl : Response.aborted c = x := by simpa using hx
  exact ⟨good_aborted c, fun _ => hrecord⟩

/-- A reset event gives a good state: VP is cut to its width and no response is left. -/
theorem good_applyReset (s : State) (rest : List Event) : (s.applyReset rest).good = true := by
  simpa [State.good_iff] using ptrCut_lt s.params.pw (Config.resetVP s.resets)

/-- A command makes a good state of any state whose VP is within its width. -/
theorem runCommand_good {s t : State} (hvp : s.vp.toNat < 2 ^ s.params.pw.bits)
    (h : runCommand s = .next t) : t.good = true := by
  obtain ⟨resp, hresp, rfl⟩ | ⟨c, rfl⟩ | ⟨w, v, rfl⟩ := runCommand_cases h
  · exact good_setResponse hvp hresp
  · exact good_takeAbort hvp c
  · exact good_setResponse (by simpa using vp_writeReg_lt hvp w v) (good_value 0)

/-- No command changes the parameters (R34). -/
theorem runCommand_params {s t : State} (h : runCommand s = .next t) : t.params = s.params := by
  obtain ⟨_, -, rfl⟩ | ⟨_, rfl⟩ | ⟨_, _, rfl⟩ := runCommand_cases h
  · rfl
  · rfl
  · exact State.writeReg_params _ _ _

end Sys2Proof.Machine
end

section
/-! What a sub-word write leaves in the registers (R111, R116), bit by bit. -/

namespace Sys2Proof.Machine

/-- `s` with the named sub-word written from port b: what `State.withSubWord` answers in range. -/
def State.putSubWord (s : State) (w : Width) (sw : SubWidth) (i : BitVec 8) : State :=
  s.writeReg w (zext (setSubWord (s.regVal w) sw.bits i.toNat (s.ports.b.setWidth sw.bits)))

/-- The sub-word write at an index in range. -/
theorem withSubWord_of_inRange {s : State} {w : Width} {sw : SubWidth} {i : BitVec 8}
    (hi : i.toNat < s.width w / sw.bits) : s.withSubWord w sw i = some (s.putSubWord w sw i) := by
  simp [State.withSubWord, State.putSubWord, indexInRange, hi]

/-- At an index in range all four setters write the sub-word and answer done. -/
theorem exec_setter_of_inRange {s : State} {w : Width} {sw : SubWidth} {i : BitVec 8} {j : Instr}
    (hi : i.toNat < s.width w / sw.bits)
    (hj : j ∈ [Instr.setswU w sw i, .setswS w sw i, .setswcU w sw i, .setswcS w sw i]) :
    exec j s = .next ((s.putSubWord w sw i).setResponse Response.done) := by
  simp only [List.mem_cons, List.not_mem_nil, or_false] at hj
  rcases hj with rfl | rfl | rfl | rfl
  · rw [exec_setswU, withSubWord_of_inRange hi]; rfl
  · rw [exec_setswS, withSubWord_of_inRange hi]; rfl
  · rw [exec_setswcU, withSubWord_of_inRange hi]; rfl
  · rw [exec_setswcS, withSubWord_of_inRange hi]; rfl

/-- Giving a response leaves every register. -/
@[simp] theorem regNat_setResponse (s : State) (x : Response) (w : Width) :
    regNat (s.setResponse x) w = regNat s w := by cases w <;> rfl

/-- Taking an abort leaves every register (R249). -/
@[simp] theorem regNat_takeAbort (s : State) (c : Cause) (w : Width) :
    regNat (s.takeAbort c) w = regNat s w := by cases w <;> rfl

/-- Zero extension keeps the number of a value of the width in force. -/
theorem zext_toNat {s : State} {w : Width} (v : BitVec (s.width w)) : (zext v).toNat = v.toNat := by
  rw [zext_eq, portOf_toNat _ (v.isLt.trans_le (two_pow_width_le s.params.pw w))]

/-- Writing a register with a value of its own width: it holds that value. -/
theorem regNat_writeReg_zext (s : State) (w : Width) (v : BitVec (s.width w)) :
    regNat (s.writeReg w (zext v)) w = v.toNat := by
  rw [regNat_writeReg, zext_toNat, Nat.mod_eq_of_lt v.isLt]

/-- A bit of a register, as a number, is the bit of its content. -/
theorem regNat_testBit (s : State) (w : Width) (k : Nat) :
    (regNat s w).testBit k = (s.regVal w).getLsbD k := by
  rw [← regVal_toNat, BitVec.getLsbD]

/-- The register after a sub-word write: port b's bits in the sub-word, the old bits elsewhere. -/
theorem regNat_putSubWord_testBit (s : State) (w : Width) (sw : SubWidth) (i : BitVec 8) {k : Nat}
    (hk : k < s.width w) :
    (regNat (s.putSubWord w sw i) w).testBit k =
      if i.toNat * sw.bits ≤ k ∧ k < (i.toNat + 1) * sw.bits then
        s.ports.b.getLsbD (k - i.toNat * sw.bits)
      else (regNat s w).testBit k := by
  rw [State.putSubWord, regNat_writeReg_zext, ← BitVec.getLsbD, setSubWord_getLsbD _ _ _ _ _ hk,
    regNat_testBit]
  split
  case isTrue h =>
    obtain ⟨hlo, hhi⟩ := h
    rw [Nat.succ_mul] at hhi
    rw [BitVec.getLsbD_setWidth, decide_eq_true (by omega), Bool.true_and]
  case isFalse => rfl

/-- A number whose bits from bit `m` up are the low `n` bits of a port has the port's low number
there. -/
theorem div_mod_eq_low {x m n : Nat} {p : Port}
    (h : ∀ j < n, x.testBit (m + j) = p.getLsbD j) : x / 2 ^ m % 2 ^ n = low p n := by
  apply Nat.eq_of_testBit_eq
  intro j
  by_cases hj : j < n
  · simp [low, Nat.testBit_mod_two_pow, Nat.testBit_div_two_pow, hj, add_comm j m, h j hj,
      BitVec.getLsbD]
  · simp [low, Nat.testBit_mod_two_pow, hj]

/-- The written sub-word, as a number, is what port b holds below its width. -/
theorem regNat_putSubWord_div_mod {s : State} {w : Width} {sw : SubWidth} {i : BitVec 8}
    (hi : i.toNat < s.width w / sw.bits) :
    regNat (s.putSubWord w sw i) w / 2 ^ (i.toNat * sw.bits) % 2 ^ sw.bits =
      low s.ports.b sw.bits := by
  have hinside := inRange_le hi
  rw [Nat.succ_mul] at hinside
  apply div_mod_eq_low
  intro j hj
  rw [regNat_putSubWord_testBit s w sw i (by omega), if_pos (by rw [Nat.succ_mul]; omega),
    Nat.add_sub_cancel_left]

/-- GETSW.U at an index in range gives the sub-word as a number (R107). -/
theorem resultOf_exec_getswU {s : State} {w : Width} {sw : SubWidth} {i : BitVec 8}
    (hi : i.toNat < s.width w / sw.bits) :
    resultOf (exec (.getswU w sw i) s) =
      some (portOf (regNat s w / 2 ^ (i.toNat * sw.bits) % 2 ^ sw.bits)) := by
  have hsub : s.subWordAt w sw i = some (subWord (s.regVal w) sw.bits i.toNat) := by
    simp [State.subWordAt, indexInRange, hi]
  rw [exec_getswU, hsub, ← regVal_toNat, ← subWord_toNat, ← zext_eq]
  rfl

end Sys2Proof.Machine
end

section
/-! What the ports have to do with a command's effect (R29): each meaning reads its operands through the
operand forms, so two commands that agree on the bits `SameOperands` names have the same effect. -/

namespace Sys2Proof.Machine

/-- `s` with another command on the ports, all else as it is. -/
def State.withPorts (s : State) (q : Command) : State := { s with ports := q }

/-- Both answers are next states, and the second is the first with the command `q` on the ports. -/
def SameButPorts (q : Command) (x y : Result) : Prop :=
  ∃ t, x = .next t ∧ y = .next (t.withPorts q)

/-- Ports with the same low bits are the same when cut. -/
theorem setWidth_congr_low {p p' : Port} {n : Nat} (h : low p n = low p' n) :
    p.setWidth n = p'.setWidth n := by
  apply BitVec.eq_of_toNat_eq
  rw [toNat_setWidth_low, toNat_setWidth_low, h]

section
variable {s : State} {q : Command} {w : Width}

/-- Operand A reads the low bits of port a alone. -/
theorem opA_withPorts (h : low s.ports.a (w.bits s.params.pw) = low q.a (w.bits s.params.pw)) :
    (s.withPorts q).opA w = s.opA w := (setWidth_congr_low h).symm

/-- Operand B reads the low bits of port b alone. -/
theorem opB_withPorts (h : low s.ports.b (w.bits s.params.pw) = low q.b (w.bits s.params.pw)) :
    (s.withPorts q).opB w = s.opB w := (setWidth_congr_low h).symm

/-- Operand C reads the low bits of port c alone. -/
theorem opC_withPorts (h : low s.ports.c (w.bits s.params.pw) = low q.c (w.bits s.params.pw)) :
    (s.withPorts q).opC w = s.opC w := (setWidth_congr_low h).symm

/-- The count reads port k alone. -/
theorem opK_withPorts (h : s.ports.k = q.k) : (s.withPorts q).opK = s.opK :=
  congrArg BitVec.toNat h.symm

/-- The array constructor reads the low halves of ports a and b alone (R103). -/
theorem arrayValue_withPorts
    (ha : low s.ports.a (w.bits s.params.pw / 2) = low q.a (w.bits s.params.pw / 2))
    (hb : low s.ports.b (w.bits s.params.pw / 2) = low q.b (w.bits s.params.pw / 2)) :
    (s.withPorts q).arrayValue w = s.arrayValue w := by
  simp only [State.arrayValue, State.width, State.withPorts, setWidth_congr_low ha,
    setWidth_congr_low hb]
  rfl

/-- A register write takes the low `n` bits of the value alone (R22). -/
theorem writeReg_congr_low {v v' : BitVec 128} (h : low v (s.width w) = low v' (s.width w)) :
    s.writeReg w v = s.writeReg w v' :=
  (withReg_eq s w v v'.toNat h).trans (withReg_eq s w v' v'.toNat rfl).symm

/-- A register write does not touch the ports. -/
theorem writeReg_withPorts (v : BitVec 128) :
    (s.withPorts q).writeReg w v = (s.writeReg w v).withPorts q := by
  cases w <;> rfl

/-- A sub-word write reads the low `w` bits of port b alone (R111). -/
theorem withSubWord_withPorts {sw : SubWidth} {idx : BitVec 8}
    (h : low s.ports.b sw.bits = low q.b sw.bits) :
    (s.withPorts q).withSubWord w sw idx = (s.withSubWord w sw idx).map (·.withPorts q) := by
  have hb : (s.withPorts q).ports.b.setWidth sw.bits = s.ports.b.setWidth sw.bits :=
    (setWidth_congr_low h).symm
  simp only [State.withSubWord, writeReg_withPorts, hb]
  rw [apply_ite (Option.map _)]
  rfl

/-- Ending with the same answer is the same effect. -/
theorem SameButPorts.answer (x : Answer) :
    SameButPorts q (s.answer x) ((s.withPorts q).answer x) := by
  cases x <;> exact ⟨_, rfl, rfl⟩

/-- Storing values that agree on the register's bits is the same effect. -/
theorem SameButPorts.store {v v' : BitVec 128} (h : low v (s.width w) = low v' (s.width w)) :
    SameButPorts q (s.store w v) ((s.withPorts q).store w v') := by
  refine ⟨_, rfl, ?_⟩
  rw [State.store, writeReg_withPorts, ← writeReg_congr_low h]
  rfl

/-- An unchecked get of the same sub-word is the same effect. -/
theorem SameButPorts.getUnchecked (v : Option Port) :
    SameButPorts q (s.getUnchecked v) ((s.withPorts q).getUnchecked v) := by
  cases v <;> exact ⟨_, rfl, rfl⟩

/-- A checked get of the same sub-word is the same effect. -/
theorem SameButPorts.getChecked (v : Option Port) :
    SameButPorts q (s.getChecked v) ((s.withPorts q).getChecked v) := by
  cases v <;> exact ⟨_, rfl, rfl⟩

/-- An unchecked sub-word set to the same bits is the same effect. -/
theorem SameButPorts.setUnchecked {sw : SubWidth} {idx : BitVec 8}
    (h : low s.ports.b sw.bits = low q.b sw.bits) :
    SameButPorts q (s.setUnchecked (s.withSubWord w sw idx))
      ((s.withPorts q).setUnchecked ((s.withPorts q).withSubWord w sw idx)) := by
  rw [withSubWord_withPorts h]
  cases s.withSubWord w sw idx <;> exact ⟨_, rfl, rfl⟩

/-- A checked sub-word set to the same bits is the same effect. -/
theorem SameButPorts.setChecked {sw : SubWidth} {idx : BitVec 8}
    (h : low s.ports.b sw.bits = low q.b sw.bits) :
    SameButPorts q (s.setChecked (s.withSubWord w sw idx))
      ((s.withPorts q).setChecked ((s.withPorts q).withSubWord w sw idx)) := by
  rw [withSubWord_withPorts h]
  cases s.withSubWord w sw idx <;> exact ⟨_, rfl, rfl⟩

variable {i : Instr} {f : State → Answer}

/-- What the cases below turn on: an instruction ends with an answer, and the answer is the same on
the other ports. -/
theorem SameButPorts.of_exec_eq (hexec : ∀ s, exec i s = s.answer (f s))
    (hf : f (s.withPorts q) = f s) : SameButPorts q (exec i s) (exec i (s.withPorts q)) := by
  rw [hexec, hexec, hf]
  exact .answer _

/-- An instruction whose answer reads operand A alone. -/
theorem SameButPorts.readsA (hexec : ∀ s, exec i s = s.answer (f s))
    (ha : low s.ports.a (w.bits s.params.pw) = low q.a (w.bits s.params.pw))
    (hf : (s.withPorts q).opA w = s.opA w → f (s.withPorts q) = f s := by
      intro ha; simp only [ha]; rfl) :
    SameButPorts q (exec i s) (exec i (s.withPorts q)) :=
  .of_exec_eq hexec (hf (opA_withPorts ha))

/-- An instruction whose answer reads operands A and B alone. -/
theorem SameButPorts.readsAB (hexec : ∀ s, exec i s = s.answer (f s))
    (ha : low s.ports.a (w.bits s.params.pw) = low q.a (w.bits s.params.pw))
    (hb : low s.ports.b (w.bits s.params.pw) = low q.b (w.bits s.params.pw))
    (hf : (s.withPorts q).opA w = s.opA w → (s.withPorts q).opB w = s.opB w →
      f (s.withPorts q) = f s := by intro ha hb; simp only [ha, hb]; rfl) :
    SameButPorts q (exec i s) (exec i (s.withPorts q)) :=
  .of_exec_eq hexec (hf (opA_withPorts ha) (opB_withPorts hb))

/-- An instruction whose answer reads operands A and B and the flag in alone. -/
theorem SameButPorts.readsABCin (hexec : ∀ s, exec i s = s.answer (f s))
    (ha : low s.ports.a (w.bits s.params.pw) = low q.a (w.bits s.params.pw))
    (hb : low s.ports.b (w.bits s.params.pw) = low q.b (w.bits s.params.pw))
    (hcin : s.ports.cin = q.cin)
    (hf : (s.withPorts q).opA w = s.opA w → (s.withPorts q).opB w = s.opB w →
      (s.withPorts q).ports.cin = s.ports.cin → f (s.withPorts q) = f s := by
      intro ha hb hcin; simp only [ha, hb, hcin]; rfl) :
    SameButPorts q (exec i s) (exec i (s.withPorts q)) :=
  .of_exec_eq hexec (hf (opA_withPorts ha) (opB_withPorts hb) hcin.symm)

/-- An instruction whose answer reads operand A and the count alone. -/
theorem SameButPorts.readsAK (hexec : ∀ s, exec i s = s.answer (f s))
    (ha : low s.ports.a (w.bits s.params.pw) = low q.a (w.bits s.params.pw))
    (hk : s.ports.k = q.k)
    (hf : (s.withPorts q).opA w = s.opA w → (s.withPorts q).opK = s.opK →
      f (s.withPorts q) = f s := by intro ha hk; simp only [ha, hk]; rfl) :
    SameButPorts q (exec i s) (exec i (s.withPorts q)) :=
  .of_exec_eq hexec (hf (opA_withPorts ha) (opK_withPorts hk))

end

/-- Every instruction has the same effect under two commands that agree on the bits it reads. -/
theorem exec_sameButPorts {i : Instr} {s : State} {q : Command}
    (h : SameOperands s.params.pw i s.ports q) :
    SameButPorts q (exec i s) (exec i (s.withPorts q)) := by
  obtain ⟨ha, hb, hc, hcin, hk⟩ := h
  cases i with
  | zero w => exact .store rfl
  | setU w | setS w => exact .store (hb rfl)
  | newarrU w | newarrS w =>
    exact .store (congrArg (low · _) (arrayValue_withPorts (ha rfl) (hb rfl)).symm)
  | getU w | getS w => exact ⟨_, rfl, rfl⟩
  | getswU w sw idx | getswS w sw idx => exact .getUnchecked _
  | getswcU w sw idx | getswcS w sw idx => exact .getChecked _
  | setswU w sw idx | setswS w sw idx => exact .setUnchecked (hb rfl)
  | setswcU w sw idx | setswcS w sw idx => exact .setChecked (hb rfl)
  | adc w => exact .readsABCin (exec_adc w) (ha rfl) (hb rfl) (hcin rfl)
  | sbb w => exact .readsABCin (exec_sbb w) (ha rfl) (hb rfl) (hcin rfl)
  | mulw w => exact .readsAB (exec_mulw w) (ha rfl) (hb rfl)
  | mulc w =>
    refine .of_exec_eq (exec_mulc w) ?_
    simp only [opA_withPorts (ha rfl), opB_withPorts (hb rfl), opC_withPorts (hc rfl)]
    rfl
  | addWrap w => exact .readsAB (exec_addWrap w) (ha rfl) (hb rfl)
  | addOvf w => exact .readsAB (exec_addOvf w) (ha rfl) (hb rfl)
  | addChk w => exact .readsAB (exec_addChk w) (ha rfl) (hb rfl)
  | addUnchk w => exact .readsAB (exec_addUnchk w) (ha rfl) (hb rfl)
  | addSat w => exact .readsAB (exec_addSat w) (ha rfl) (hb rfl)
  | subWrap w => exact .readsAB (exec_subWrap w) (ha rfl) (hb rfl)
  | subOvf w => exact .readsAB (exec_subOvf w) (ha rfl) (hb rfl)
  | subChk w => exact .readsAB (exec_subChk w) (ha rfl) (hb rfl)
  | subUnchk w => exact .readsAB (exec_subUnchk w) (ha rfl) (hb rfl)
  | subSat w => exact .readsAB (exec_subSat w) (ha rfl) (hb rfl)
  | mulWrap w => exact .readsAB (exec_mulWrap w) (ha rfl) (hb rfl)
  | mulOvf w => exact .readsAB (exec_mulOvf w) (ha rfl) (hb rfl)
  | mulChk w => exact .readsAB (exec_mulChk w) (ha rfl) (hb rfl)
  | mulUnchk w => exact .readsAB (exec_mulUnchk w) (ha rfl) (hb rfl)
  | mulSat w => exact .readsAB (exec_mulSat w) (ha rfl) (hb rfl)
  | divWrap w => exact .readsAB (exec_divWrap w) (ha rfl) (hb rfl)
  | divOvf w => exact .readsAB (exec_divOvf w) (ha rfl) (hb rfl)
  | divChk w => exact .readsAB (exec_divChk w) (ha rfl) (hb rfl)
  | divUnchk w => exact .readsAB (exec_divUnchk w) (ha rfl) (hb rfl)
  | divSat w => exact .readsAB (exec_divSat w) (ha rfl) (hb rfl)
  | remWrap w => exact .readsAB (exec_remWrap w) (ha rfl) (hb rfl)
  | remOvf w => exact .readsAB (exec_remOvf w) (ha rfl) (hb rfl)
  | remChk w => exact .readsAB (exec_remChk w) (ha rfl) (hb rfl)
  | remUnchk w => exact .readsAB (exec_remUnchk w) (ha rfl) (hb rfl)
  | remSat w => exact .readsAB (exec_remSat w) (ha rfl) (hb rfl)
  | negWrap w => exact .readsA (exec_negWrap w) (ha rfl)
  | negOvf w => exact .readsA (exec_negOvf w) (ha rfl)
  | negChk w => exact .readsA (exec_negChk w) (ha rfl)
  | negUnchk w => exact .readsA (exec_negUnchk w) (ha rfl)
  | negSat w => exact .readsA (exec_negSat w) (ha rfl)
  | powWrap w => exact .readsAK (exec_powWrap w) (ha rfl) (hk rfl)
  | powOvf w => exact .readsAK (exec_powOvf w) (ha rfl) (hk rfl)
  | powChk w => exact .readsAK (exec_powChk w) (ha rfl) (hk rfl)
  | powUnchk w => exact .readsAK (exec_powUnchk w) (ha rfl) (hk rfl)
  | powSat w => exact .readsAK (exec_powSat w) (ha rfl) (hk rfl)
  | absdiff w => exact .readsAB (exec_absdiff w) (ha rfl) (hb rfl)
  | rotl w => exact .readsAK (exec_rotl w) (ha rfl) (hk rfl)
  | rotr w => exact .readsAK (exec_rotr w) (ha rfl) (hk rfl)
  | brev w => exact .readsA (exec_brev w) (ha rfl)
  | cnt1 w => exact .readsA (exec_cnt1 w) (ha rfl)
  | cnt0 w => exact .readsA (exec_cnt0 w) (ha rfl)
  | ld1 w => exact .readsA (exec_ld1 w) (ha rfl)
  | ld0 w => exact .readsA (exec_ld0 w) (ha rfl)
  | tr1 w => exact .readsA (exec_tr1 w) (ha rfl)
  | tr0 w => exact .readsA (exec_tr0 w) (ha rfl)
  | bswap w => exact .readsA (exec_bswap w) (ha rfl)
  | tobe w => exact .readsA (exec_tobe w) (ha rfl)
  | tole w => exact .readsA (exec_tole w) (ha rfl)
  | frombe w => exact .readsA (exec_frombe w) (ha rfl)
  | fromle w => exact .readsA (exec_fromle w) (ha rfl)
  | ispow2 w => exact .readsA (exec_ispow2 w) (ha rfl)
  | nextpow2 w => exact .readsA (exec_nextpow2 w) (ha rfl)
  | ilog w => exact .readsAB (exec_ilog w) (ha rfl) (hb rfl)
  | ilog2 w => exact .readsA (exec_ilog2 w) (ha rfl)
  | ilog10 w => exact .readsA (exec_ilog10 w) (ha rfl)
  | isqrt w => exact .readsA (exec_isqrt w) (ha rfl)

end Sys2Proof.Machine
end

section
/-! The host's chains of limb commands (R134): one induction for both directions, over the signed exact
sum, from what one command of the chain gives. -/

namespace Sys2Proof.Machine

/-- An encoded ADC decodes to itself, at every pointer width. -/
theorem decode_encode_adc (pw : PtrWidth) (w : Width) :
    decode pw (encode (.adc w)) = .ok (.adc w) := by
  cases w <;> rfl

/-- An encoded SBB decodes to itself, at every pointer width. -/
theorem decode_encode_sbb (pw : PtrWidth) (w : Width) :
    decode pw (encode (.sbb w)) = .ok (.sbb w) := by
  cases w <;> rfl

/-- `s` with the command the host presents on the ports and nothing pending (R30). -/
def State.presented (s : State) (i : Instr) (a b c : Port) (cin : Bool) : State :=
  s.latch { cmd := encode i, a := a, b := b, c := c, cin := cin, k := 0 } []

/-- The host presents a command whose word decodes to it, and gets the response `exec` gives. -/
theorem hostCommand_of_exec {s : State} {i : Instr} {a b c : Port} {cin : Bool} {resp : Response}
    (hdecode : decode s.params.pw (encode i) = .ok i)
    (hexec : exec i (s.presented i a b c cin) =
      .next ((s.presented i a b c cin).setResponse resp)) :
    hostCommand s i a b c cin = some ((s.presented i a b c cin).setResponse resp, resp) := by
  have hstep : step { s with pending := [.command
      { cmd := encode i, a := a, b := b, c := c, cin := cin, k := 0 }] } =
      .next ((s.presented i a b c cin).setResponse resp) := by
    rw [step_of_command rfl]
    exact (runCommand_of_decode (s := s.presented i a b c cin) hdecode).trans hexec
  rw [hostCommand, hstep]
  rfl

/-- The number of a limb array is below the power of its width. -/
theorem limbValue_lt (n : Nat) (xs : List Port) : limbValue n xs < 2 ^ (xs.length * n) := by
  induction xs with
  | nil => simp [limbValue]
  | cons x xs ih =>
    have hx := low_lt x n
    rw [limbValue, List.length_cons, Nat.succ_mul, Nat.pow_add, mul_comm (2 ^ (xs.length * n))]
    calc low x n + 2 ^ n * limbValue n xs < 2 ^ n * (limbValue n xs + 1) := by rw [mul_add]; omega
      _ ≤ 2 ^ n * 2 ^ (xs.length * n) := Nat.mul_le_mul_left _ ih

/-- What one command of a chain gives, in either direction: `ε` is 1 for the adder and -1 for the
subtractor. Limb and flag together are the exact signed sum of the operands and the flag in. -/
def LimbStep (i : Instr) (w : Width) (ε : Int) : Prop :=
  ∀ (s : State) (x y : Port) (cin : Bool), ∃ t resp,
    hostCommand s i x y 0 cin = some (t, resp) ∧ t.width w = s.width w ∧
    resp.r.toNat < 2 ^ s.width w ∧
    (resp.r.toNat : Int) + ε * resp.fo.toNat * 2 ^ s.width w =
      low x (s.width w) + ε * (low y (s.width w) + cin.toNat)

/-- The whole chain: limbs and last flag together are the exact signed sum of the two numbers and the
first flag. -/
theorem hostChain_sum {i : Instr} {w : Width} {ε : Int} (hi : LimbStep i w ε)
    (limbs : List (Port × Port)) (c0 : Bool) (s : State) :
    ∃ rs cy, hostChain i limbs c0 s = some (rs, cy) ∧ rs.length = limbs.length ∧
      (∀ r ∈ rs, r.toNat < 2 ^ s.width w) ∧
      (limbValue (s.width w) rs : Int) + ε * cy.toNat * 2 ^ (limbs.length * s.width w) =
        limbValue (s.width w) (limbs.map (·.1)) +
          ε * (limbValue (s.width w) (limbs.map (·.2)) + c0.toNat) := by
  induction limbs generalizing c0 s with
  | nil => exact ⟨[], c0, rfl, rfl, by simp, by simp [limbValue]⟩
  | cons xy limbs ih =>
    obtain ⟨x, y⟩ := xy
    obtain ⟨t, resp, hcmd, hwidth, hr, hsum⟩ := hi s x y c0
    obtain ⟨rs, cy, hchain, hlen, hrs, hrest⟩ := ih resp.fo t
    rw [hwidth] at hrs hrest
    refine ⟨resp.r :: rs, cy, by simp only [hostChain, hcmd, hchain, Option.map_some],
      by simp [hlen], ?_, ?_⟩
    · simpa [hr] using hrs
    · have hlow : low resp.r (s.width w) = resp.r.toNat := Nat.mod_eq_of_lt hr
      simp only [List.map_cons, limbValue, List.length_cons, hlow]
      push_cast
      rw [Nat.succ_mul, pow_add]
      linear_combination hsum + 2 ^ s.width w * hrest

/-- An instruction that answers with the limb and the flag of a carry operation is a chain step. -/
theorem limbStep_of_exec_eq {i : Instr} {w : Width} {ε : Int}
    {op : ∀ {n : Nat}, BitVec n → BitVec n → Bool → BitVec n × Bool}
    (hdecode : ∀ pw, decode pw (encode i) = .ok i)
    (hexec : ∀ s : State, exec i s =
      s.answer (.done (Response.flagged (zext (op (s.opA w) (s.opB w) s.ports.cin).1)
        (op (s.opA w) (s.opB w) s.ports.cin).2)))
    (hop : ∀ {n : Nat} (x y : BitVec n) (c : Bool),
      ((op x y c).1.toNat : Int) + ε * (op x y c).2.toNat * 2 ^ n =
        x.toNat + ε * (y.toNat + c.toNat)) : LimbStep i w ε := by
  intro s x y cin
  have hsum := hop ((s.presented i x y 0 cin).opA w) ((s.presented i x y 0 cin).opB w) cin
  have hr := zext_toNat
    (op ((s.presented i x y 0 cin).opA w) ((s.presented i x y 0 cin).opB w) cin).1
  refine ⟨_, _, hostCommand_of_exec (hdecode _) (hexec _), rfl, ?_, ?_⟩
  · exact hr ▸ BitVec.isLt _
  · rw [opA_toNat, opB_toNat, ← hr] at hsum
    exact hsum

/-- ADC is a chain step: its limb and carry are the exact sum (R130). -/
theorem limbStep_adc (w : Width) : LimbStep (.adc w) w 1 := by
  refine limbStep_of_exec_eq (fun pw => decode_encode_adc pw w) (exec_adc w) fun {n} x y c => ?_
  have hsum : ((adcBits x y c).2.toNat : Int) * 2 ^ n + (adcBits x y c).1.toNat =
      x.toNat + y.toNat + c.toNat := by exact_mod_cast adcBits_sum x y c
  linear_combination hsum

/-- SBB is a chain step: its limb and borrow are the exact difference (R132). -/
theorem limbStep_sbb (w : Width) : LimbStep (.sbb w) w (-1) := by
  refine limbStep_of_exec_eq (fun pw => decode_encode_sbb pw w) (exec_sbb w) fun {n} x y c => ?_
  linear_combination sbbBits_sum x y c

end Sys2Proof.Machine
end

section
/-! The obligations of the state chapter (`10_state.md`). -/

namespace Sys2Proof.Machine

/-- Settles O11, by what the step does. -/
theorem everyStepKeepsTheInvariant : Obligations.EveryStepKeepsTheInvariant := by
  unfold Obligations.EveryStepKeepsTheInvariant
  intro s t hgood hstep
  obtain ⟨hvp, -⟩ := s.good_iff.mp hgood
  obtain rfl | ⟨c, rest, hrun⟩ | ⟨rest, rfl⟩ := step_cases hstep
  · exact hgood
  · exact runCommand_good (s := s.latch c rest) hvp hrun
  · exact good_applyReset s rest

/-- Settles O14, by how the instruction ends. -/
theorem onlyFamilyZeroWritersTouchARegister : Obligations.OnlyFamilyZeroWritersTouchARegister := by
  unfold Obligations.OnlyFamilyZeroWritersTouchARegister
  intro i s
  obtain ⟨resp, -, hx⟩ | ⟨c, hx⟩ | ⟨hwrites, v, hx⟩ := exec_ends i s
  · exact ⟨_, hx, fun w _ => regNat_setResponse s resp w, fun _ => ⟨rfl, rfl, rfl, rfl, rfl⟩,
      rfl, rfl, rfl, rfl⟩
  · exact ⟨_, hx, fun w _ => regNat_takeAbort s c w, fun _ => ⟨rfl, rfl, rfl, rfl, rfl⟩,
      rfl, rfl, rfl, rfl⟩
  · refine ⟨_, hx, fun w hw => ?_, fun hnot => ?_, by simp⟩
    · rw [regNat_setResponse, regNat_writeReg_ne s _ _ v hw]
    · rw [hwrites] at hnot
      contradiction

/-- Settles O16: the meaning reads its operands through the operand forms alone. -/
theorem onlyTheNamedPortBitsAreRead : Obligations.OnlyTheNamedPortBitsAreRead := by
  unfold Obligations.OnlyTheNamedPortBitsAreRead
  intro i s q hsame
  exact exec_sameButPorts hsame

/-- Settles O32: the chain's exact sum, split into limbs and carry. -/
theorem chainedAdcAddsWideNumbers : Obligations.ChainedAdcAddsWideNumbers := by
  unfold Obligations.ChainedAdcAddsWideNumbers
  intro w s limbs c0 n total
  obtain ⟨rs, cy, hchain, hlen, hrs, hsum⟩ := hostChain_sum (limbStep_adc w) limbs c0 s
  have hlt : limbValue n rs < 2 ^ (limbs.length * n) := hlen ▸ limbValue_lt n rs
  have htotal : limbValue n rs + cy.toNat * 2 ^ (limbs.length * n) = total := by
    simp only [total]
    zify
    linear_combination hsum
  refine ⟨rs, cy, hchain, hlen, hrs, ?_, ?_⟩
  · rw [← htotal, Nat.add_mul_mod_self_right, Nat.mod_eq_of_lt hlt]
  · rw [← htotal]
    cases cy <;> simp [hlt]

/-- Settles O33: the chain's exact difference, split into limbs and borrow. -/
theorem chainedSbbSubtractsWideNumbers : Obligations.ChainedSbbSubtractsWideNumbers := by
  unfold Obligations.ChainedSbbSubtractsWideNumbers
  intro w s limbs c0 n total
  obtain ⟨rs, cy, hchain, hlen, hrs, hsum⟩ := hostChain_sum (limbStep_sbb w) limbs c0 s
  have hlt : (limbValue n rs : Int) < 2 ^ (limbs.length * n) := by
    exact_mod_cast hlen ▸ limbValue_lt n rs
  have htotal : (limbValue n rs : Int) - cy.toNat * 2 ^ (limbs.length * n) = total := by
    linear_combination hsum
  refine ⟨rs, cy, hchain, hlen, hrs, ?_, ?_⟩
  · rw [← htotal, sub_eq_add_neg, ← neg_mul, Int.add_mul_emod_self_right,
      Int.emod_eq_of_lt (by positivity) hlt]
  · rw [← htotal]
    cases cy <;> simp [hlt]

/-- Settles O12, by what the step does. -/
theorem noStepChangesTheParameters : Obligations.NoStepChangesTheParameters := by
  unfold Obligations.NoStepChangesTheParameters
  intro s t hstep
  obtain rfl | ⟨c, rest, hrun⟩ | ⟨rest, rfl⟩ := step_cases hstep
  · rfl
  · exact runCommand_params (s := s.latch c rest) hrun
  · rfl

/-- Settles O27: the stored value bit by bit; the read back is that sub-word's bits. -/
theorem subWordWriteChangesExactlyItsBits : Obligations.SubWordWriteChangesExactlyItsBits := by
  unfold Obligations.SubWordWriteChangesExactlyItsBits
  intro s w sw i j _ hi hj
  refine ⟨_, exec_setter_of_inRange hi hj, fun k hk => ?_, fun w' hw' => ?_, ?_⟩
  · rw [regNat_setResponse, regNat_putSubWord_testBit s w sw i hk]
  · rw [regNat_setResponse, State.putSubWord, regNat_writeReg_ne s w w' _ hw']
  · have hi' : i.toNat < ((s.putSubWord w sw i).setResponse Response.done).width w / sw.bits := by
      simpa [State.putSubWord] using hi
    rw [resultOf_exec_getswU hi', regNat_setResponse, regNat_putSubWord_div_mod hi]

/-- Settles O10: no response, and VP reads zero. -/
theorem invariantHoldsAtReset : Obligations.InvariantHoldsAtReset := by
  unfold Obligations.InvariantHoldsAtReset
  exact (State.good_iff _).mpr ⟨by decide, nofun⟩

end Sys2Proof.Machine
end

section
/-! Where sub-words lie in the byte image (R43 to R45). -/

namespace Sys2Proof.Machine

/-- The lowest bit of byte `j` of the byte image of an `n`-bit value (R43). -/
def byteStart (e : Endian) (n j : Nat) : Nat :=
  match e with
  | .le => 8 * j
  | .be => n - 8 - 8 * j

/-- The byte image has one entry for each whole byte. -/
@[simp] theorem length_byteImage (e : Endian) {n : Nat} (x : BitVec n) :
    (byteImage e x).length = n / 8 := by
  simp [byteImage]

/-- Byte `j` of the byte image is the eight bits from `byteStart` up. -/
@[simp] theorem getElem_byteImage (e : Endian) {n : Nat} (x : BitVec n) {j : Nat}
    (hj : j < (byteImage e x).length) :
    (byteImage e x)[j] = x.extractLsb' (byteStart e n j) 8 := by
  cases e <;> simp [byteImage, byteStart]

/-- A byte of a value lies within the value. -/
theorem byteStart_add_le (e : Endian) {n j : Nat} (hj : j < n / 8) : byteStart e n j + 8 ≤ n := by
  cases e <;> simp only [byteStart] <;> omega

/-- Bits inside a sub-word are the value's own bits, `i * w` further up (R25). -/
theorem extractLsb'_subWord {n : Nat} (x : BitVec n) {w b len : Nat} (i : Nat) (h : b + len ≤ w) :
    (subWord x w i).extractLsb' b len = x.extractLsb' (i * w + b) len := by
  ext k hk
  simp [subWord, BitVec.getElem_extractLsb', show b + k < w by omega, Nat.add_assoc]

/-- Byte `j` of sub-word `i` at its physical position is the value's byte that starts `i * w` bits
above byte `j` of the sub-word alone (R44, R45). -/
theorem byteStart_physicalPos (e : Endian) {n w i j : Nat} (h8 : 8 ∣ w) (hw : w ∣ n)
    (hi : i < n / w) (hj : j < w / 8) :
    byteStart e n (physicalPos e (n / w) i * (w / 8) + j) = i * w + byteStart e w j := by
  obtain ⟨m, rfl⟩ := h8
  obtain ⟨c, rfl⟩ := hw
  have hm : 8 * m / 8 = m := by omega
  rw [hm] at hj ⊢
  rw [Nat.mul_div_cancel_left c (by omega)] at hi ⊢
  cases e with
  | le => simp only [byteStart, physicalPos]; ring
  | be =>
    obtain ⟨d, rfl⟩ : ∃ d, c = i + 1 + d := ⟨c - (i + 1), by omega⟩
    have hd : i + 1 + d - 1 - i = d := by omega
    have hsize : 8 * m * (i + 1 + d) = i * (8 * m) + 8 * m + 8 * (d * m) := by ring
    simp only [byteStart, physicalPos, hd, hsize]
    omega

/-- The bytes of a physical position end within the byte image. -/
theorem physicalPos_le (e : Endian) {n w i : Nat} (h8 : 8 ∣ w) (hi : i < n / w) :
    physicalPos e (n / w) i * (w / 8) + w / 8 ≤ n / 8 := by
  have hpos : physicalPos e (n / w) i < n / w := by
    cases e <;> simp only [physicalPos] <;> omega
  have hbits := inRange_le hpos
  obtain ⟨m, rfl⟩ := h8
  rw [← Nat.succ_mul, Nat.le_div_iff_mul_le (by omega)]
  simpa [mul_assoc, mul_comm, mul_left_comm] using hbits

/-- The bytes at the physical position of sub-word `i` are the byte image of that sub-word, for any
width of whole bytes that divides the value's. -/
theorem take_drop_byteImage (e : Endian) {n w i : Nat} (x : BitVec n) (h8 : 8 ∣ w) (hw : w ∣ n)
    (hi : i < n / w) :
    ((byteImage e x).drop (physicalPos e (n / w) i * (w / 8))).take (w / 8) =
      byteImage e (subWord x w i) := by
  have hend := physicalPos_le e h8 hi
  apply List.ext_getElem
  · simp only [List.length_take, List.length_drop, length_byteImage]
    omega
  · intro j _ hj
    rw [length_byteImage] at hj
    simp only [List.getElem_take, List.getElem_drop, getElem_byteImage]
    rw [byteStart_physicalPos e h8 hw hi hj, extractLsb'_subWord x i (byteStart_add_le e hj)]

/-- A sub-word is made of whole bytes (R65). -/
theorem eight_dvd_subWidth (sw : SubWidth) : 8 ∣ sw.bits := by
  cases sw <;> decide

/-- Every sub-word width is a power of two (R65). -/
theorem subWidth_eq_two_pow (sw : SubWidth) : ∃ k, sw.bits = 2 ^ k := by
  cases sw
  exacts [⟨3, rfl⟩, ⟨4, rfl⟩, ⟨5, rfl⟩, ⟨6, rfl⟩]

/-- Every width in force is a power of two (R4, R9). -/
theorem width_eq_two_pow (pw : PtrWidth) (w : Width) : ∃ k, w.bits pw = 2 ^ k := by
  rcases width_cases pw w with h | h | h | h
  exacts [⟨4, h⟩, ⟨5, h⟩, ⟨6, h⟩, ⟨7, h⟩]

/-- The sub-words of an existing shape fill the value (R24): of two powers of two the smaller
divides the larger. -/
theorem subWidth_dvd_width {pw : PtrWidth} {w : Width} {sw : SubWidth}
    (h : shapeExists pw w sw = true) : sw.bits ∣ w.bits pw := by
  have hle : sw.bits ≤ w.bits pw := (of_decide_eq_true h).trans (Nat.div_le_self _ 2)
  obtain ⟨k, hk⟩ := subWidth_eq_two_pow sw
  obtain ⟨m, hm⟩ := width_eq_two_pow pw w
  rw [hk, hm] at hle ⊢
  exact pow_dvd_pow 2 ((Nat.pow_le_pow_iff_right Nat.one_lt_two).mp hle)

end Sys2Proof.Machine
end

section
/-! The obligation of the memory chapter (`20_memory.md`). -/

namespace Sys2Proof.Machine

/-- Settles O28, byte by byte: the byte orders differ only in where each byte starts. -/
theorem subWordsSitAtTheirPhysicalPosition : Obligations.SubWordsSitAtTheirPhysicalPosition := by
  unfold Obligations.SubWordsSitAtTheirPhysicalPosition
  intro pw w sw x e i hshape hi
  exact take_drop_byteImage e x (eight_dvd_subWidth sw) (subWidth_dvd_width hshape) hi

end Sys2Proof.Machine
end

section
/-! What each field of a command word selects, both ways (R62, R63, R65), and how a word is laid out by
its format (R67). -/

namespace Sys2Proof

/-- WSEL selects a width exactly when it is that width's code (R62). -/
theorem widthOf_eq_some_iff {wsel : BitVec 3} {w : Width} :
    widthOf wsel = some w ↔ wsel = w.code := by
  cases w <;> revert wsel <;> decide

/-- WSEL selects no width exactly when it is 5, 6 or 7 (R62). -/
theorem widthOf_eq_none_iff : ∀ {wsel : BitVec 3}, widthOf wsel = none ↔ 5 ≤ wsel.toNat := by
  decide

/-- POL selects a policy exactly when it is that policy's code (R63). -/
theorem policyOf_eq_some_iff {pol : BitVec 3} {p : Policy} :
    policyOf pol = some p ↔ pol = p.code := by
  cases p <;> revert pol <;> decide

/-- POL selects no policy exactly when it is 5, 6 or 7 (R63). -/
theorem policyOf_eq_none_iff : ∀ {pol : BitVec 3}, policyOf pol = none ↔ 5 ≤ pol.toNat := by
  decide

/-- SH selects the sub-word width whose code it is (R65). -/
@[simp] theorem subWidthOf_code (sw : SubWidth) : subWidthOf sw.code = sw := by
  cases sw <;> rfl

/-- The code of what SH selects is SH itself (R65). -/
@[simp] theorem code_subWidthOf : ∀ sh : BitVec 2, (subWidthOf sh).code = sh := by
  decide

/-- The sub-word width SH selects, in bits (R65). -/
theorem bits_subWidthOf : ∀ sh : BitVec 2, (subWidthOf sh).bits = 8 * 2 ^ sh.toNat := by
  decide

/-- A statement about all values of S is one about the two of them (R64). -/
theorem signBit_forall_iff {P : BitVec 1 → Prop} : (∀ s, P s) ↔ P 0 ∧ P 1 := by
  refine ⟨fun h => ⟨h 0, h 1⟩, fun ⟨hunsigned, hsigned⟩ s => ?_⟩
  obtain rfl | rfl := BitVec.eq_zero_or_eq_one s <;> assumption

/-- A statement about all policies is one about each of the five (R63). -/
theorem Policy.forall_iff {P : Policy → Prop} :
    (∀ p, P p) ↔ P .wrap ∧ P .ovf ∧ P .chk ∧ P .unchk ∧ P .sat := by
  refine ⟨fun h => ⟨h _, h _, h _, h _, h _⟩, fun ⟨hwrap, hovf, hchk, hunchk, hsat⟩ p => ?_⟩
  cases p <;> assumption

/-- A word with RSV, POL, S, SH and IDX zero is a format-N word (R67). -/
theorem wordN_eq_wordOf {f : Fields} {w : Width} (hrsv : f.rsv = 0) (hwsel : f.wsel = w.code)
    (hpol : f.pol = 0) (hs : f.s = 0) (hsh : f.sh = 0) (hidx : f.idx = 0) :
    wordN f.opc w = wordOf f := by
  rw [wordN, ← hrsv, ← hwsel, ← hpol, ← hs, ← hsh, ← hidx]

/-- A word with RSV, POL, SH and IDX zero is a format-V word (R67). -/
theorem wordV_eq_wordOf {f : Fields} {w : Width} (hrsv : f.rsv = 0) (hwsel : f.wsel = w.code)
    (hpol : f.pol = 0) (hsh : f.sh = 0) (hidx : f.idx = 0) :
    wordV f.opc w f.s = wordOf f := by
  rw [wordV, ← hrsv, ← hwsel, ← hpol, ← hsh, ← hidx]

/-- A word with RSV and POL zero is a format-X word (R67). -/
theorem wordX_eq_wordOf {f : Fields} {w : Width} (hrsv : f.rsv = 0) (hwsel : f.wsel = w.code)
    (hpol : f.pol = 0) : wordX f.opc w f.s (subWidthOf f.sh) f.idx = wordOf f := by
  rw [wordX, code_subWidthOf, ← hrsv, ← hwsel, ← hpol]

/-- A word with RSV, S, SH and IDX zero is a format-P word (R67). -/
theorem wordP_eq_wordOf {f : Fields} {w : Width} {p : Policy} (hrsv : f.rsv = 0)
    (hwsel : f.wsel = w.code) (hpol : f.pol = p.code) (hs : f.s = 0) (hsh : f.sh = 0)
    (hidx : f.idx = 0) : wordP f.opc w p = wordOf f := by
  rw [wordP, ← hrsv, ← hwsel, ← hpol, ← hs, ← hsh, ← hidx]

end Sys2Proof
end

section
/-! What the decoder does with the fields: the one way to decode, and what each format's words decode to
(R64 to R67, R70). -/

namespace Sys2Proof

/-- The entry of a format-P row for a policy: the rows list them in the order of R63. -/
def Policy.select {α : Type} (wrap ovf chk unchk sat : α) : Policy → α
  | .wrap => wrap
  | .ovf => ovf
  | .chk => chk
  | .unchk => unchk
  | .sat => sat

/-- A format-P row read at a POL that selects a policy. -/
theorem readRow_fmtP_of_policy {pw : PtrWidth} {f : Fields} {w : Width} {p : Policy}
    (h : policyOf f.pol = some p) (mkWrap mkOvf mkChk mkUnchk mkSat : Width → Instr) :
    readRow pw f w (.fmtP mkWrap mkOvf mkChk mkUnchk mkSat) =
      .ok (p.select mkWrap mkOvf mkChk mkUnchk mkSat w) := by
  cases p <;> simp only [readRow, h, Policy.select]

/-- A format-P row read at a POL that selects none (R70 item 5). -/
theorem readRow_fmtP_of_none {pw : PtrWidth} {f : Fields} {w : Width}
    (h : policyOf f.pol = none) (mkWrap mkOvf mkChk mkUnchk mkSat : Width → Instr) :
    readRow pw f w (.fmtP mkWrap mkOvf mkChk mkUnchk mkSat) = .error .policyReserved := by
  simp only [readRow, h]

/-- A format-X row read at a shape that exists. -/
theorem readRow_fmtX_of_shape {pw : PtrWidth} {f : Fields} {w : Width}
    (h : shapeExists pw w (subWidthOf f.sh) = true)
    (mkU mkS : Width → SubWidth → BitVec 8 → Instr) :
    readRow pw f w (.fmtX mkU mkS) =
      .ok (if f.s = 0 then mkU w (subWidthOf f.sh) f.idx else mkS w (subWidthOf f.sh) f.idx) :=
  if_pos h

/-- A format-X row read at a shape that does not exist (R70 item 6). -/
theorem readRow_fmtX_of_missing {pw : PtrWidth} {f : Fields} {w : Width}
    (h : ¬ shapeExists pw w (subWidthOf f.sh) = true)
    (mkU mkS : Width → SubWidth → BitVec 8 → Instr) :
    readRow pw f w (.fmtX mkU mkS) = .error .shapeMissing :=
  if_neg h

/-- The fields decode to `i` exactly when items 1 to 4 of R70 do not hold and the row of the opcode
reads `i`. -/
theorem decodeFields_eq_ok_iff {pw : PtrWidth} {f : Fields} {i : Instr} :
    decodeFields pw f = .ok i ↔ f.rsv = 0 ∧ ∃ w row, widthOf f.wsel = some w ∧
      opcodeRow f.opc = some row ∧ unusedNonzero f row = false ∧ readRow pw f w row = .ok i := by
  unfold decodeFields
  by_cases hrsv : f.rsv = 0
  case neg => simp only [ne_eq, hrsv, not_false_eq_true, if_true, false_and, reduceCtorEq]
  cases hwidth : widthOf f.wsel with
  | none => simp [hrsv]
  | some w =>
    cases hrow : opcodeRow f.opc with
    | none => simp [hrsv]
    | some row => cases hunused : unusedNonzero f row <;> simp [hrsv, hunused]

/-- A word put together from fields decodes to what the row of its opcode reads. -/
theorem decode_wordOf {pw : PtrWidth} {f : Fields} {w : Width} {row : OpRow} {i : Instr}
    (hrsv : f.rsv = 0) (hwsel : f.wsel = w.code) (hrow : opcodeRow f.opc = some row)
    (hunused : unusedNonzero f row = false) (hread : readRow pw f w row = .ok i) :
    decode pw (wordOf f) = .ok i := by
  rw [decode, fieldsOf_wordOf, decodeFields_eq_ok_iff]
  exact ⟨hrsv, w, row, widthOf_eq_some_iff.mpr hwsel, hrow, hunused, hread⟩

section
variable {pw : PtrWidth} {opc : BitVec 8} {w : Width}

/-- A format-N word decodes to the instruction of its opcode's row. -/
theorem decode_wordN {mk : Width → Instr} (hrow : opcodeRow opc = some (.fmtN mk)) :
    decode pw (wordN opc w) = .ok (mk w) :=
  decode_wordOf rfl rfl hrow rfl rfl

/-- A format-V word decodes to the unsigned or the signed instruction of its row, by S (R64). -/
theorem decode_wordV {mkU mkS : Width → Instr} (hrow : opcodeRow opc = some (.fmtV mkU mkS))
    (s : BitVec 1) : decode pw (wordV opc w s) = .ok (if s = 0 then mkU w else mkS w) :=
  decode_wordOf rfl rfl hrow rfl rfl

/-- A format-X word whose shape exists decodes to the unsigned or the signed instruction of its row,
by S (R64, R65). -/
theorem decode_wordX {mkU mkS : Width → SubWidth → BitVec 8 → Instr} {sw : SubWidth} {idx : BitVec 8}
    (hrow : opcodeRow opc = some (.fmtX mkU mkS)) (hshape : shapeExists pw w sw = true)
    (s : BitVec 1) :
    decode pw (wordX opc w s sw idx) = .ok (if s = 0 then mkU w sw idx else mkS w sw idx) := by
  refine decode_wordOf rfl rfl hrow rfl ?_
  rw [readRow_fmtX_of_shape (by rwa [subWidthOf_code]), subWidthOf_code]

/-- A format-P word decodes to its policy's instruction of the row (R63). -/
theorem decode_wordP {mkWrap mkOvf mkChk mkUnchk mkSat : Width → Instr}
    (hrow : opcodeRow opc = some (.fmtP mkWrap mkOvf mkChk mkUnchk mkSat)) (p : Policy) :
    decode pw (wordP opc w p) = .ok (p.select mkWrap mkOvf mkChk mkUnchk mkSat w) :=
  decode_wordOf rfl rfl hrow rfl (readRow_fmtP_of_policy (policyOf_eq_some_iff.mpr rfl) ..)

end

end Sys2Proof
end

section
/-! The opcode map (R68): the format of each row is that of its opcode, and the encoder writes every
instruction of a row at the row's opcode in the row's format. -/

namespace Sys2Proof

open Machine

/-- The four formats of R67. -/
inductive Format where
  | n
  | v
  | x
  | p
  deriving DecidableEq

/-- The opcodes of a format, as R68 lists them. -/
def Format.opcodes : Format → List Nat
  | .n => opcodesN
  | .v => opcodesV
  | .x => opcodesX
  | .p => opcodesP

/-- A statement about all formats is one about each of the four (R67). -/
theorem Format.forall_iff {P : Format → Prop} :
    (∀ g, P g) ↔ P .n ∧ P .v ∧ P .x ∧ P .p := by
  refine ⟨fun h => ⟨h _, h _, h _, h _⟩, fun ⟨hn, hv, hx, hp⟩ g => ?_⟩
  cases g <;> assumption

/-- The format of a row of the opcode map. -/
def OpRow.format : OpRow → Format
  | .fmtN _ => .n
  | .fmtV _ _ => .v
  | .fmtX _ _ => .x
  | .fmtP _ _ _ _ _ => .p

/-- An opcode with a row is listed under the format of that row and under no other (R68). -/
theorem mem_opcodes_iff {opc : BitVec 8} {row : OpRow} (h : opcodeRow opc = some row)
    (g : Format) : opc.toNat ∈ g.opcodes ↔ row.format = g := by
  unfold opcodeRow at h
  split at h <;> cases h
  all_goals
    next hopc =>
    rw [hopc]
    cases g <;> decide

/-- Every opcode R68 lists has a row. -/
theorem opcodeRow_isSome (g : Format) :
    ∀ o ∈ g.opcodes, (opcodeRow (BitVec.ofNat 8 o)).isSome = true := by
  cases g <;> decide

/-- An opcode without a row is listed under no format (R71). -/
theorem not_mem_opcodes_of_none {opc : BitVec 8} (h : opcodeRow opc = none) (g : Format) :
    opc.toNat ∉ g.opcodes := by
  intro hmem
  have hsome := opcodeRow_isSome g _ hmem
  rw [BitVec.ofNat_toNat, BitVec.setWidth_eq, h] at hsome
  contradiction

/-- The encoder writes `i` as `word`, and `i` is well formed where `legal` says so. -/
def Instr.EncodesTo (i : Instr) (word : CmdWord) (legal : PtrWidth → Bool) : Prop :=
  encode i = word ∧ ∀ pw, i.wellFormed pw = legal pw

/-- The encoder writes each instruction of the row at opcode `opc` in the row's format; all are well
formed, in format X where the shape exists. -/
def OpRow.EncodesAt (opc : BitVec 8) : OpRow → Prop
  | .fmtN mk => ∀ w, (mk w).EncodesTo (wordN opc w) fun _ => true
  | .fmtV mkU mkS => ∀ w (s : BitVec 1),
    (if s = 0 then mkU w else mkS w).EncodesTo (wordV opc w s) fun _ => true
  | .fmtX mkU mkS => ∀ w sw idx (s : BitVec 1),
    (if s = 0 then mkU w sw idx else mkS w sw idx).EncodesTo (wordX opc w s sw idx)
      fun pw => shapeExists pw w sw
  | .fmtP mkWrap mkOvf mkChk mkUnchk mkSat => ∀ w (p : Policy),
    (p.select mkWrap mkOvf mkChk mkUnchk mkSat w).EncodesTo (wordP opc w p) fun _ => true

/-- Every row of the opcode map holds the instructions the encoder writes at its opcode. -/
theorem encodesAt_of_opcodeRow {opc : BitVec 8} {row : OpRow} (h : opcodeRow opc = some row) :
    row.EncodesAt opc := by
  -- The map matches on the number of the opcode, so the goal is put in terms of that number.
  rw [← BitVec.setWidth_eq opc, ← BitVec.ofNat_toNat]
  unfold opcodeRow at h
  split at h <;> cases h
  all_goals
    next hopc =>
    rw [hopc]
    simp only [OpRow.EncodesAt, Instr.EncodesTo, signBit_forall_iff, Policy.forall_iff]
    intros
    and_intros <;> intros <;> rfl

section
variable {pw : PtrWidth} {f : Fields} {w : Width} {row : OpRow}

/-- What a row reads from fields with nothing in the unused ones, the encoder writes back as the word
of those fields. -/
theorem encode_of_readRow {i : Instr} (hrsv : f.rsv = 0) (hwsel : f.wsel = w.code)
    (hrow : row.EncodesAt f.opc) (hunused : unusedNonzero f row = false)
    (hread : readRow pw f w row = .ok i) : i.wellFormed pw = true ∧ encode i = wordOf f := by
  cases row with
  | fmtN mk =>
    obtain ⟨⟨⟨hpol, hs⟩, hsh⟩, hidx⟩ : ((f.pol = 0 ∧ f.s = 0) ∧ f.sh = 0) ∧ f.idx = 0 := by
      simpa [unusedNonzero] using hunused
    obtain rfl := Except.ok.inj hread
    obtain ⟨hword, hlegal⟩ := hrow w
    exact ⟨hlegal pw, hword.trans (wordN_eq_wordOf hrsv hwsel hpol hs hsh hidx)⟩
  | fmtV mkU mkS =>
    obtain ⟨⟨hpol, hsh⟩, hidx⟩ : (f.pol = 0 ∧ f.sh = 0) ∧ f.idx = 0 := by
      simpa [unusedNonzero] using hunused
    obtain rfl := Except.ok.inj hread
    obtain ⟨hword, hlegal⟩ := hrow w f.s
    exact ⟨hlegal pw, hword.trans (wordV_eq_wordOf hrsv hwsel hpol hsh hidx)⟩
  | fmtX mkU mkS =>
    have hpol : f.pol = 0 := by simpa [unusedNonzero] using hunused
    by_cases hshape : shapeExists pw w (subWidthOf f.sh) = true
    case neg =>
      rw [readRow_fmtX_of_missing hshape] at hread
      contradiction
    rw [readRow_fmtX_of_shape hshape] at hread
    obtain rfl := Except.ok.inj hread
    obtain ⟨hword, hlegal⟩ := hrow w (subWidthOf f.sh) f.idx f.s
    exact ⟨(hlegal pw).trans hshape, hword.trans (wordX_eq_wordOf hrsv hwsel hpol)⟩
  | fmtP mkWrap mkOvf mkChk mkUnchk mkSat =>
    obtain ⟨⟨hs, hsh⟩, hidx⟩ : (f.s = 0 ∧ f.sh = 0) ∧ f.idx = 0 := by
      simpa [unusedNonzero] using hunused
    cases hpolicy : policyOf f.pol with
    | none =>
      rw [readRow_fmtP_of_none hpolicy] at hread
      contradiction
    | some p =>
      rw [readRow_fmtP_of_policy hpolicy] at hread
      obtain rfl := Except.ok.inj hread
      obtain ⟨hword, hlegal⟩ := hrow w p
      have hpol := policyOf_eq_some_iff.mp hpolicy
      exact ⟨hlegal pw, hword.trans (wordP_eq_wordOf hrsv hwsel hpol hs hsh hidx)⟩

end

end Sys2Proof
end

section
/-! Illegal words (R70): the six items over the fields, and that the decoder refuses exactly them. -/

namespace Sys2Proof.Machine

/-- Cutting a field out of the word as a number is cutting its bits out (R60). -/
theorem fieldNat_eq (word : CmdWord) (lo n : Nat) :
    fieldNat word lo n = (word.extractLsb' lo n).toNat := by
  rw [BitVec.extractLsb'_toNat, Nat.shiftRight_eq_div_pow, fieldNat]

/-- The six items of R70 over the fields. -/
def illegalFields (pw : PtrWidth) (f : Fields) : Prop :=
  f.rsv ≠ 0 ∨ 5 ≤ f.wsel.toNat ∨ (∀ g : Format, f.opc.toNat ∉ g.opcodes) ∨
  (f.pol ≠ 0 ∧ f.opc.toNat ∉ Format.p.opcodes) ∨
  (f.s ≠ 0 ∧ f.opc.toNat ∉ Format.v.opcodes ∧ f.opc.toNat ∉ Format.x.opcodes) ∨
  ((f.sh ≠ 0 ∨ f.idx ≠ 0) ∧ f.opc.toNat ∉ Format.x.opcodes) ∨
  (f.opc.toNat ∈ Format.p.opcodes ∧ 5 ≤ f.pol.toNat) ∨
  (f.opc.toNat ∈ Format.x.opcodes ∧ selBits pw f.wsel.toNat / 2 < (subWidthOf f.sh).bits)

/-- The six items of R70 over the word are those over its fields. -/
theorem illegalWord_iff {pw : PtrWidth} {word : CmdWord} :
    illegalWord pw word ↔ illegalFields pw (fieldsOf word) := by
  simp only [illegalWord, illegalFields, fieldNat_eq, fieldsOf, bits_subWidthOf, Format.forall_iff,
    Format.opcodes, BitVec.toNat_ne, BitVec.ofNat_eq_ofNat, BitVec.toNat_ofNat, Nat.zero_mod,
    List.mem_append, not_or, and_assoc]

/-- The code of a width is none of the reserved ones (R62). -/
theorem code_lt_five (w : Width) : w.code.toNat < 5 := by
  cases w <;> decide

/-- The width whose code WSEL is, in bits (R62). -/
theorem selBits_code (pw : PtrWidth) (w : Width) : selBits pw w.code.toNat = w.bits pw := by
  cases w <;> rfl

/-- A format-X row is refused exactly when the shape is wider than half the value (R70 item 6). -/
theorem readRow_fmtX_error_iff {pw : PtrWidth} {f : Fields} {w : Width}
    {mkU mkS : Width → SubWidth → BitVec 8 → Instr} :
    (∃ e, readRow pw f w (.fmtX mkU mkS) = .error e) ↔
      w.bits pw / 2 < (subWidthOf f.sh).bits := by
  by_cases hshape : shapeExists pw w (subWidthOf f.sh) = true
  · simpa [readRow_fmtX_of_shape hshape, shapeExists] using hshape
  · simpa [readRow_fmtX_of_missing hshape, shapeExists] using hshape

/-- A format-P row is refused exactly when POL is 5, 6 or 7 (R70 item 5). -/
theorem readRow_fmtP_error_iff {pw : PtrWidth} {f : Fields} {w : Width}
    {mkWrap mkOvf mkChk mkUnchk mkSat : Width → Instr} :
    (∃ e, readRow pw f w (.fmtP mkWrap mkOvf mkChk mkUnchk mkSat) = .error e) ↔
      5 ≤ f.pol.toNat := by
  rw [← policyOf_eq_none_iff]
  cases hpolicy : policyOf f.pol with
  | none => simp [readRow_fmtP_of_none hpolicy]
  | some p => simp [readRow_fmtP_of_policy hpolicy]

/-- Where items 1 to 3 do not hold, items 4 to 6 hold exactly when the row refuses: its format says
which fields are unused and which of them it checks. -/
theorem illegalFields_iff_of_row {pw : PtrWidth} {f : Fields} {w : Width} {row : OpRow}
    (hrsv : f.rsv = 0) (hwsel : f.wsel = w.code) (hrow : opcodeRow f.opc = some row) :
    illegalFields pw f ↔
      unusedNonzero f row = true ∨ ∃ e, readRow pw f w row = .error e := by
  have hlt := code_lt_five w
  simp only [illegalFields, hrsv, hwsel, selBits_code, mem_opcodes_iff hrow, hlt.not_ge]
  cases row with
  | fmtN mk => simp [OpRow.format, unusedNonzero, readRow, or_assoc]
  | fmtV mkU mkS => simp [OpRow.format, unusedNonzero, readRow, or_assoc]
  | fmtX mkU mkS => simp [OpRow.format, unusedNonzero, readRow_fmtX_error_iff]
  | fmtP mkWrap mkOvf mkChk mkUnchk mkSat =>
    simp [OpRow.format, unusedNonzero, readRow_fmtP_error_iff, or_assoc]

/-- The fields are refused exactly when one of the six items of R70 holds. -/
theorem decodeFields_error_iff {pw : PtrWidth} {f : Fields} :
    (∃ e, decodeFields pw f = .error e) ↔ illegalFields pw f := by
  by_cases hrsv : f.rsv = 0
  case neg => exact ⟨fun _ => .inl hrsv, fun _ => ⟨_, if_pos hrsv⟩⟩
  cases hwidth : widthOf f.wsel with
  | none => simp [decodeFields, illegalFields, hrsv, hwidth, widthOf_eq_none_iff.mp hwidth]
  | some w =>
    cases hrow : opcodeRow f.opc with
    | none =>
      simp [decodeFields, illegalFields, hrsv, hwidth, hrow, not_mem_opcodes_of_none hrow]
    | some row =>
      rw [illegalFields_iff_of_row hrsv (widthOf_eq_some_iff.mp hwidth) hrow]
      cases hunused : unusedNonzero f row <;> simp [decodeFields, hrsv, hwidth, hrow, hunused]

/-- A step that takes a command whose word is refused aborts with ILLEGAL (R241). -/
theorem step_abortsWith_of_reject {s : State} {c : Command} {rest : List Event} {e : Reject}
    (hpending : s.pending = .command c :: rest) (hdecode : decode s.params.pw c.cmd = .error e) :
    AbortsWith (step s) { s with ports := c, pending := rest } .illegal := by
  have hrun : runCommand (s.latch c rest) = .next ((s.latch c rest).takeAbort .illegal) :=
    runCommand_of_reject (by simpa using hdecode)
  rw [step_of_command hpending, hrun]
  exact abortsWith_takeAbort (s.latch c rest) .illegal

end Sys2Proof.Machine
end

section
/-! The obligations of the encoding chapter (`30_encoding.md`). -/

namespace Sys2Proof.Machine

/-- Settles O1, by the format of the instruction: its word goes back to the row it stands in. -/
theorem decodeOfEncodeIsTheInstruction : Obligations.DecodeOfEncodeIsTheInstruction := by
  unfold Obligations.DecodeOfEncodeIsTheInstruction
  intro pw i hwf
  cases i with
  | zero w | adc w | sbb w | mulw w | mulc w | absdiff w | rotl w | rotr w | brev w | cnt1 w
  | cnt0 w | ld1 w | ld0 w | tr1 w | tr0 w | bswap w | tobe w | tole w | frombe w | fromle w
  | ispow2 w | nextpow2 w | ilog w | ilog2 w | ilog10 w | isqrt w => exact decode_wordN rfl
  | setU w | newarrU w | getU w => exact decode_wordV rfl 0
  | setS w | newarrS w | getS w => exact decode_wordV rfl 1
  | getswU w sw idx | getswcU w sw idx | setswU w sw idx | setswcU w sw idx =>
    exact decode_wordX rfl hwf 0
  | getswS w sw idx | getswcS w sw idx | setswS w sw idx | setswcS w sw idx =>
    exact decode_wordX rfl hwf 1
  | addWrap w | subWrap w | mulWrap w | divWrap w | remWrap w | negWrap w | powWrap w =>
    exact decode_wordP rfl .wrap
  | addOvf w | subOvf w | mulOvf w | divOvf w | remOvf w | negOvf w | powOvf w =>
    exact decode_wordP rfl .ovf
  | addChk w | subChk w | mulChk w | divChk w | remChk w | negChk w | powChk w =>
    exact decode_wordP rfl .chk
  | addUnchk w | subUnchk w | mulUnchk w | divUnchk w | remUnchk w | negUnchk w | powUnchk w =>
    exact decode_wordP rfl .unchk
  | addSat w | subSat w | mulSat w | divSat w | remSat w | negSat w | powSat w =>
    exact decode_wordP rfl .sat

/-- Settles O2, by the row that read the instruction: the encoder writes it back there. -/
theorem decodedWordIsItsEncoding : Obligations.DecodedWordIsItsEncoding := by
  unfold Obligations.DecodedWordIsItsEncoding
  intro pw word i hdecode
  obtain ⟨hrsv, w, row, hwidth, hrow, hunused, hread⟩ := decodeFields_eq_ok_iff.mp hdecode
  have hback := encode_of_readRow hrsv (widthOf_eq_some_iff.mp hwidth)
    (encodesAt_of_opcodeRow hrow) hunused hread
  rwa [wordOf_fieldsOf] at hback

/-- Settles O3: the decoder refuses what the six items name, and a refused command aborts. -/
theorem illegalWordsAreThoseOfTheSixItems : Obligations.IllegalWordsAreThoseOfTheSixItems := by
  unfold Obligations.IllegalWordsAreThoseOfTheSixItems
  have hrefused (pw : PtrWidth) (word : CmdWord) :
      (∃ e, decode pw word = .error e) ↔ illegalWord pw word :=
    decodeFields_error_iff.trans illegalWord_iff.symm
  refine ⟨hrefused, fun s c rest hpending hillegal => ?_⟩
  obtain ⟨e, hdecode⟩ := (hrefused _ _).mpr hillegal
  exact step_abortsWith_of_reject hpending hdecode

/-- Settles O4: the decoder runs on each of the eight words. -/
theorem sampleWordsDecode : Obligations.SampleWordsDecode := by
  unfold Obligations.SampleWordsDecode
  decide

end Sys2Proof.Machine
end

section
/-! The whole-register commands (R100 to R106): what NEWARR stores as a number, and what a write through
the model's operations is in the terms of the statements. -/

namespace Sys2Proof.Machine

/-- The array constructor's value: port a's half below, port b's half above (R103). -/
theorem arrayValue_toNat (s : State) (w : Width) :
    (s.arrayValue w).toNat =
      low s.ports.a (s.width w / 2) + 2 ^ (s.width w / 2) * low s.ports.b (s.width w / 2) := by
  have hfits : 2 ^ (s.width w / 2 + s.width w / 2) ≤ 2 ^ 128 :=
    Nat.pow_le_pow_right (by decide) (by have := width_le s.params.pw w; rw [State.width]; omega)
  rw [State.arrayValue, zext_eq, portOf_toNat _ ((BitVec.isLt _).trans_le hfits),
    BitVec.toNat_append, toNat_setWidth_low, toNat_setWidth_low,
    ← Nat.shiftLeft_add_eq_or_of_lt (low_lt _ _), Nat.shiftLeft_eq, add_comm, mul_comm]

/-- A register write, in the terms of the statements, by the number the register then holds. -/
theorem writeReg_eq_withReg_regNat (s : State) (w : Width) (v : BitVec 128) :
    s.writeReg w v = withReg s w (regNat (s.writeReg w v) w) :=
  withReg_eq s w v _ (by rw [regNat_writeReg, Nat.mod_mod])

/-- SET.U leaves the low bits of port b in the register (R101). -/
theorem exec_setU_leaves (s : State) (w : Width) :
    ∃ t, exec (.setU w) s = .next t ∧ t.width w = s.width w ∧
      regNat t w = low s.ports.b (s.width w) := by
  refine ⟨_, exec_setU w s, by simp, ?_⟩
  rw [regNat_setResponse, regNat_writeReg, low]

/-- GET.U answers the register's number (R105). -/
theorem exec_getU_eq_completed (s : State) (w : Width) :
    exec (.getU w) s = .next (completed s (portOf (regNat s w)) 0 false true) := by
  rw [exec_getU, zext_eq, regVal_toNat, setResponse_value]

/-- GET.S answers the register's signed number (R106). -/
theorem exec_getS_eq_completed (s : State) (w : Width) :
    exec (.getS w) s =
      .next (completed s (BitVec.ofInt 128 (signedOf (s.width w) (regNat s w))) 0 false true) := by
  rw [exec_getS, sext_eq _ (width_pos s w), regVal_toNat, setResponse_value]

end Sys2Proof.Machine
end

section
/-! The sub-word commands as number formulas (R107 to R114): what a getter finds and a setter leaves, in
range and out of range. -/

namespace Sys2Proof.Machine

section
variable {s : State} {w : Width} {sw : SubWidth} {i : BitVec 8}

/-- The sub-word at an index in range. -/
theorem subWordAt_of_inRange (hi : i.toNat < s.width w / sw.bits) :
    s.subWordAt w sw i = some (subWord (s.regVal w) sw.bits i.toNat) :=
  if_pos (decide_eq_true hi)

/-- No sub-word at an index out of range. -/
theorem subWordAt_of_outOfRange (hi : ¬ i.toNat < s.width w / sw.bits) :
    s.subWordAt w sw i = none :=
  if_neg (by simpa [indexInRange] using hi)

/-- No sub-word write at an index out of range. -/
theorem withSubWord_of_outOfRange (hi : ¬ i.toNat < s.width w / sw.bits) :
    s.withSubWord w sw i = none :=
  if_neg (by simpa [indexInRange] using hi)

/-- What an unsigned getter finds in range, by the number formula of R107. -/
theorem map_zext_subWordAt (hi : i.toNat < s.width w / sw.bits) :
    (s.subWordAt w sw i).map zext =
      some (portOf (regNat s w / 2 ^ (i.toNat * sw.bits) % 2 ^ sw.bits)) := by
  rw [subWordAt_of_inRange hi, Option.map_some, zext_eq, subWord_toNat, regVal_toNat]

/-- No sub-word width is 0. -/
theorem subWidth_pos (sw : SubWidth) : 1 ≤ sw.bits := by
  cases sw <;> decide

/-- What a signed getter finds in range: the same number, read as signed (R108). -/
theorem map_sext_subWordAt (hi : i.toNat < s.width w / sw.bits) :
    (s.subWordAt w sw i).map sext =
      some (BitVec.ofInt 128
        (signedOf sw.bits (regNat s w / 2 ^ (i.toNat * sw.bits) % 2 ^ sw.bits))) := by
  rw [subWordAt_of_inRange hi, Option.map_some, sext_eq _ (subWidth_pos sw), subWord_toNat,
    regVal_toNat]

/-- A sub-word write keeps the bits below the sub-word. -/
theorem regNat_putSubWord_mod (hi : i.toNat < s.width w / sw.bits) :
    regNat (s.putSubWord w sw i) w % 2 ^ (i.toNat * sw.bits) =
      regNat s w % 2 ^ (i.toNat * sw.bits) := by
  have hinside := inRange_le hi
  rw [Nat.add_one_mul] at hinside
  apply Nat.eq_of_testBit_eq
  intro k
  rw [Nat.testBit_mod_two_pow, Nat.testBit_mod_two_pow]
  by_cases hk : k < i.toNat * sw.bits
  · rw [regNat_putSubWord_testBit s w sw i (by omega), if_neg (by omega)]
  · rw [decide_eq_false hk, Bool.false_and, Bool.false_and]

/-- A register has no bit from its width up. -/
theorem regNat_testBit_of_ge {k : Nat} (hk : s.width w ≤ k) : (regNat s w).testBit k = false := by
  rw [regNat_testBit, BitVec.getLsbD_of_ge _ _ hk]

/-- A sub-word write does not change the width in force. -/
@[simp] theorem State.putSubWord_width (w' : Width) :
    (s.putSubWord w sw i).width w' = s.width w' := State.writeReg_width ..

/-- A sub-word write keeps the bits above the sub-word. -/
theorem regNat_putSubWord_div :
    regNat (s.putSubWord w sw i) w / 2 ^ ((i.toNat + 1) * sw.bits) =
      regNat s w / 2 ^ ((i.toNat + 1) * sw.bits) := by
  apply Nat.eq_of_testBit_eq
  intro k
  rw [Nat.testBit_div_two_pow, Nat.testBit_div_two_pow]
  by_cases hk : k + (i.toNat + 1) * sw.bits < s.width w
  · rw [regNat_putSubWord_testBit s w sw i hk, if_neg (by omega)]
  · rw [regNat_testBit_of_ge (by simpa using hk), regNat_testBit_of_ge (by simpa using hk)]

/-- A number is its bits below `m`, the `n` bits from `m` up, and the bits from there. -/
theorem eq_mod_add_field_add_div (x m n : Nat) :
    x = x % 2 ^ m + x / 2 ^ m % 2 ^ n * 2 ^ m + x / 2 ^ (m + n) * 2 ^ (m + n) := by
  have hlow := Nat.mod_add_div' x (2 ^ (m + n))
  rw [pow_add, Nat.mod_mul, ← pow_add] at hlow
  linarith

/-- The register after a sub-word write, by the number formula of R111. -/
theorem regNat_putSubWord (hi : i.toNat < s.width w / sw.bits) :
    regNat (s.putSubWord w sw i) w =
      regNat s w - regNat s w / 2 ^ (i.toNat * sw.bits) % 2 ^ sw.bits * 2 ^ (i.toNat * sw.bits) +
        low s.ports.b sw.bits * 2 ^ (i.toNat * sw.bits) := by
  have hold := eq_mod_add_field_add_div (regNat s w) (i.toNat * sw.bits) sw.bits
  have hnew := eq_mod_add_field_add_div (regNat (s.putSubWord w sw i) w) (i.toNat * sw.bits) sw.bits
  rw [← Nat.add_one_mul] at hold hnew
  rw [regNat_putSubWord_mod hi, regNat_putSubWord_div_mod hi, regNat_putSubWord_div] at hnew
  omega

/-- In range the four setters leave the register R111 says, and answer done. -/
theorem exec_setter_eq_completed {j : Instr} (hi : i.toNat < s.width w / sw.bits)
    (hj : j ∈ [Instr.setswU w sw i, .setswS w sw i, .setswcU w sw i, .setswcS w sw i]) :
    exec j s = .next (completed (withReg s w (regNat s w -
      regNat s w / 2 ^ (i.toNat * sw.bits) % 2 ^ sw.bits * 2 ^ (i.toNat * sw.bits) +
      low s.ports.b sw.bits * 2 ^ (i.toNat * sw.bits))) 0 0 false true) := by
  rw [exec_setter_of_inRange hi hj, ← regNat_putSubWord hi, setResponse_done, State.putSubWord,
    ← writeReg_eq_withReg_regNat]

end

end Sys2Proof.Machine
end

section
/-! The host's loops over a value's sub-words (R115): reading them all, and writing a list of them. -/

namespace Sys2Proof.Machine

/-- The `k` lowest limbs of `n` bits of the number `v`, least significant first. -/
def limbsOf (n : Nat) : Nat → Nat → List Port
  | 0, _ => []
  | k + 1, v => portOf (v % 2 ^ n) :: limbsOf n k (v / 2 ^ n)

/-- There are `k` limbs. -/
@[simp] theorem length_limbsOf (n k v : Nat) : (limbsOf n k v).length = k := by
  induction k generalizing v with
  | zero => rfl
  | succ k ih => rw [limbsOf, List.length_cons, ih]

/-- Limb `i` is the `n` bits from bit `i * n` up. -/
theorem getElem_limbsOf (n k v i : Nat) (h : i < (limbsOf n k v).length) :
    (limbsOf n k v)[i] = portOf (v / 2 ^ (i * n) % 2 ^ n) := by
  induction k generalizing v i with
  | zero => exact absurd h (Nat.not_lt_zero i)
  | succ k ih =>
    cases i with
    | zero => simp [limbsOf]
    | succ i =>
      have hshift : v / 2 ^ n / 2 ^ (i * n) = v / 2 ^ ((i + 1) * n) := by
        rw [Nat.div_div_eq_div_mul, ← pow_add, Nat.add_one_mul, add_comm n]
      simp only [limbsOf, List.getElem_cons_succ, ih, hshift]

/-- A limb that fits a port is read back from it. -/
theorem low_portOf_mod {n : Nat} (hn : n ≤ 128) (v : Nat) :
    low (portOf (v % 2 ^ n)) n = v % 2 ^ n := by
  have hfits : v % 2 ^ n < 2 ^ 128 :=
    (Nat.mod_lt v (Nat.two_pow_pos n)).trans_le (Nat.pow_le_pow_right (by decide) hn)
  rw [low, portOf_toNat _ hfits, Nat.mod_mod]

/-- The `k` lowest limbs stand for the number's low `k * n` bits. -/
theorem limbValue_limbsOf {n : Nat} (hn : n ≤ 128) (k v : Nat) :
    limbValue n (limbsOf n k v) = v % 2 ^ (k * n) := by
  induction k generalizing v with
  | zero => simp [limbsOf, limbValue, Nat.mod_one]
  | succ k ih =>
    rw [limbsOf, limbValue, low_portOf_mod hn, ih, Nat.add_one_mul, add_comm (k * n), pow_add,
      Nat.mod_mul]

/-- A sub-word fits a port. -/
theorem subWidth_le (sw : SubWidth) : sw.bits ≤ 128 := by
  cases sw <;> decide

/-- Every index in range fits the IDX field: there are at most 16 sub-words (R24, R66). -/
theorem toNat_ofNat_of_inRange {s : State} {w : Width} {sw : SubWidth} {i : Nat}
    (hi : i < s.width w / sw.bits) : (BitVec.ofNat 8 i).toNat = i := by
  have hcount : s.width w / sw.bits ≤ 128 / 8 :=
    Nat.div_le_div (width_le s.params.pw w) (by cases sw <;> decide) (by decide)
  rw [BitVec.toNat_ofNat, Nat.mod_eq_of_lt (by omega)]

/-- Driving operands does not change the width in force. -/
@[simp] theorem State.drive_width (s : State) (a b : Port) (w : Width) :
    (s.drive a b).width w = s.width w := rfl

/-- Driving operands leaves every register. -/
@[simp] theorem regNat_drive (s : State) (a b : Port) (w : Width) :
    regNat (s.drive a b) w = regNat s w := by cases w <;> rfl

/-- The host reads the sub-word at an index in range, by the number formula of R107. -/
theorem readElement_of_inRange {s : State} {w : Width} {sw : SubWidth} {i : Nat}
    (hi : i < s.width w / sw.bits) :
    readElement s w sw i = some (portOf (regNat s w / 2 ^ (i * sw.bits) % 2 ^ sw.bits)) := by
  have hidx := toNat_ofNat_of_inRange hi
  calc readElement s w sw i = resultOf (exec (.getswU w sw (BitVec.ofNat 8 i)) s) := rfl
    _ = _ := by rw [resultOf_exec_getswU (by rwa [hidx]), hidx]

/-- A register's sub-words, as the host reads them. -/
def subWordsOf (s : State) (w : Width) (sw : SubWidth) : List Port :=
  limbsOf sw.bits (s.width w / sw.bits) (regNat s w)

/-- There is one for each index in range. -/
@[simp] theorem length_subWordsOf (s : State) (w : Width) (sw : SubWidth) :
    (subWordsOf s w sw).length = s.width w / sw.bits := length_limbsOf ..

/-- The host reads each of them by GETSW.U. -/
theorem readElement_eq_getElem {s : State} {w : Width} {sw : SubWidth} {i : Nat}
    (h : i < (subWordsOf s w sw).length) :
    readElement s w sw i = some (subWordsOf s w sw)[i] := by
  rw [readElement_of_inRange (by simpa using h)]
  exact congrArg some (getElem_limbsOf _ _ _ _ h).symm

/-- Sub-words that fill the register stand for the number it holds. -/
theorem limbValue_subWordsOf {s : State} {w : Width} {sw : SubWidth} (h : sw.bits ∣ s.width w) :
    limbValue sw.bits (subWordsOf s w sw) = regNat s w := by
  rw [subWordsOf, limbValue_limbsOf (subWidth_le sw), Nat.div_mul_cancel h,
    Nat.mod_eq_of_lt (regNat_lt s w)]

/-- The host writes the sub-word at an index in range: below its upper end the register then holds
what was below the sub-word and the value written. -/
theorem writeElement_of_inRange {s : State} {w : Width} {sw : SubWidth} {i : Nat} (v : Port)
    (hi : i < s.width w / sw.bits) :
    ∃ t, writeElement s w sw i v = some t ∧ t.width w = s.width w ∧
      regNat t w % 2 ^ ((i + 1) * sw.bits) =
        regNat s w % 2 ^ (i * sw.bits) + 2 ^ (i * sw.bits) * low v sw.bits := by
  have hidx := toNat_ofNat_of_inRange hi
  have hdriven : (BitVec.ofNat 8 i).toNat < (s.drive s.ports.a v).width w / sw.bits := by
    rwa [hidx]
  refine ⟨((s.drive s.ports.a v).putSubWord w sw (BitVec.ofNat 8 i)).setResponse Response.done,
    ?_, ?_, ?_⟩
  · rw [writeElement, exec_setter_of_inRange hdriven (by simp)]
    rfl
  · rw [State.setResponse_width, State.putSubWord_width, State.drive_width]
  · have hbelow := regNat_putSubWord_mod hdriven
    have hfield := regNat_putSubWord_div_mod hdriven
    rw [hidx] at hbelow hfield
    rw [regNat_setResponse, Nat.add_one_mul, pow_add, Nat.mod_mul, hbelow, hfield, regNat_drive]
    rfl

/-- The host writes a list of sub-words that lies in range: below its upper end the register then holds
what was below the first one and the number the list stands for. -/
theorem writeElements_of_inRange {w : Width} {sw : SubWidth} (vs : List Port) (i : Nat) (s : State)
    (h : i + vs.length ≤ s.width w / sw.bits) :
    ∃ u, writeElements w sw vs i s = some u ∧ u.width w = s.width w ∧
      regNat u w % 2 ^ ((i + vs.length) * sw.bits) =
        regNat s w % 2 ^ (i * sw.bits) + 2 ^ (i * sw.bits) * limbValue sw.bits vs := by
  induction vs generalizing i s with
  | nil => exact ⟨s, rfl, rfl, by simp [limbValue]⟩
  | cons v vs ih =>
    rw [List.length_cons] at h
    obtain ⟨t, hwrite, htwidth, ht⟩ :=
      writeElement_of_inRange (s := s) (w := w) (sw := sw) (i := i) v (by omega)
    obtain ⟨u, hrest, huwidth, hu⟩ := ih (i + 1) t (by rw [htwidth]; omega)
    refine ⟨u, by simp only [writeElements, hwrite, hrest], huwidth.trans htwidth, ?_⟩
    rw [List.length_cons, ← add_assoc, add_right_comm, hu, ht, limbValue, Nat.add_one_mul, pow_add]
    ring

/-- The host writes every sub-word of a register they fill: it then holds the number the list stands
for, whatever it held. -/
theorem writeElements_all {s : State} {w : Width} {sw : SubWidth} {vs : List Port}
    (h : sw.bits ∣ s.width w) (hlen : vs.length = s.width w / sw.bits) :
    ∃ u, writeElements w sw vs 0 s = some u ∧ regNat u w = limbValue sw.bits vs := by
  obtain ⟨u, hwrite, hwidth, hu⟩ :=
    writeElements_of_inRange (w := w) (sw := sw) vs 0 s (by rw [zero_add, hlen])
  have hlt : regNat u w < 2 ^ s.width w := hwidth ▸ regNat_lt u w
  rw [zero_add, hlen, Nat.div_mul_cancel h, Nat.mod_eq_of_lt hlt] at hu
  exact ⟨u, hwrite, by simpa [Nat.mod_one] using hu⟩

end Sys2Proof.Machine
end

section
/-! The obligations of the representation chapter (`40_representation.md`). -/

namespace Sys2Proof.Machine

/-- Settles O26: the elements read are the limbs of the stored value, and writing them all leaves the
number they stand for. -/
theorem subWordsRoundTrip : Obligations.SubWordsRoundTrip := by
  unfold Obligations.SubWordsRoundTrip
  intro s s' w sw x hshape hparams
  have hdvd : sw.bits ∣ s.width w := subWidth_dvd_width hshape
  have hwidth : s'.width w = s.width w := by rw [State.width, hparams, State.width]
  obtain ⟨t, hset, htwidth, ht⟩ := exec_setU_leaves (s.drive s.ports.a x) w
  rw [State.drive_width] at htwidth
  have hlen : (subWordsOf t w sw).length = s.width w / sw.bits := by
    rw [length_subWordsOf, htwidth]
  have hvalue : limbValue sw.bits (subWordsOf t w sw) = low x (s.width w) :=
    (limbValue_subWordsOf (by rwa [htwidth])).trans ht
  obtain ⟨u, hwrite, hu⟩ := writeElements_all (s := s') (by rwa [hwidth]) (by rw [hlen, hwidth])
  refine ⟨t, subWordsOf t w sw, u, hset, hlen, fun i => readElement_eq_getElem, hvalue, hwrite, ?_⟩
  rw [exec_getU_eq_completed, resultOf_completed, hu, hvalue]
  rfl

/-- Settles O19: a store of 0 or of port b, which the register cuts to its width. -/
theorem zeroAndSetReplaceAllBits : Obligations.ZeroAndSetReplaceAllBits := by
  unfold Obligations.ZeroAndSetReplaceAllBits
  intro s w
  have hb : s.ports.b.toNat % 2 ^ s.width w = low s.ports.b (s.width w) % 2 ^ s.width w :=
    (Nat.mod_mod _ _).symm
  exact ⟨(exec_zero w s).trans (store_eq s w 0 0 rfl), (exec_setU w s).trans (store_eq s w _ _ hb),
    (exec_setS w s).trans (store_eq s w _ _ hb)⟩

/-- Settles O20: both commands store the array value. -/
theorem newArrayComposesTheTwoHalves : Obligations.NewArrayComposesTheTwoHalves := by
  unfold Obligations.NewArrayComposesTheTwoHalves
  intro s w
  have hstore := store_eq s w _ _ (congrArg (· % 2 ^ s.width w) (arrayValue_toNat s w))
  exact ⟨(exec_newarrU w s).trans hstore, (exec_newarrS w s).trans hstore⟩

/-- Settles O21. -/
theorem getReturnsTheWholeValue : Obligations.GetReturnsTheWholeValue := by
  unfold Obligations.GetReturnsTheWholeValue
  exact fun s w => ⟨exec_getU_eq_completed s w, exec_getS_eq_completed s w⟩

/-- Settles O22, by whether the index is in range. -/
theorem uncheckedGetReturnsTheSubWordOrAborts :
    Obligations.UncheckedGetReturnsTheSubWordOrAborts := by
  unfold Obligations.UncheckedGetReturnsTheSubWordOrAborts
  intro s w sw i _
  refine ⟨fun hi => ⟨?_, ?_⟩, fun hi => ⟨?_, ?_⟩⟩
  · rw [exec_getswU, map_zext_subWordAt hi]; rfl
  · rw [exec_getswS, map_sext_subWordAt hi]; rfl
  · rw [exec_getswU, subWordAt_of_outOfRange hi]; exact abortsWith_takeAbort s .idxRange
  · rw [exec_getswS, subWordAt_of_outOfRange hi]; exact abortsWith_takeAbort s .idxRange

/-- Settles O23, by whether the index is in range. -/
theorem checkedGetReturnsTheSubWordOrAbsent : Obligations.CheckedGetReturnsTheSubWordOrAbsent := by
  unfold Obligations.CheckedGetReturnsTheSubWordOrAbsent
  intro s w sw i _
  refine ⟨fun hi => ⟨?_, ?_⟩, fun hi => ⟨?_, ?_⟩⟩
  · rw [exec_getswcU, map_zext_subWordAt hi]; rfl
  · rw [exec_getswcS, map_sext_subWordAt hi]; rfl
  · rw [exec_getswcU, subWordAt_of_outOfRange hi]; rfl
  · rw [exec_getswcS, subWordAt_of_outOfRange hi]; rfl

/-- Settles O24, by whether the index is in range. -/
theorem uncheckedSetReplacesTheSubWordOrAborts :
    Obligations.UncheckedSetReplacesTheSubWordOrAborts := by
  unfold Obligations.UncheckedSetReplacesTheSubWordOrAborts
  intro s w sw i _
  refine ⟨fun hi => ⟨exec_setter_eq_completed hi (by simp), exec_setter_eq_completed hi (by simp)⟩,
    fun hi => ⟨?_, ?_⟩⟩
  · rw [exec_setswU, withSubWord_of_outOfRange hi]; exact abortsWith_takeAbort s .idxRange
  · rw [exec_setswS, withSubWord_of_outOfRange hi]; exact abortsWith_takeAbort s .idxRange

/-- Settles O25, by whether the index is in range. -/
theorem checkedSetReplacesTheSubWordOrFails : Obligations.CheckedSetReplacesTheSubWordOrFails := by
  unfold Obligations.CheckedSetReplacesTheSubWordOrFails
  intro s w sw i _
  refine ⟨fun hi => ⟨exec_setter_eq_completed hi (by simp), exec_setter_eq_completed hi (by simp)⟩,
    fun hi => ⟨?_, ?_⟩⟩
  · rw [exec_setswcU, withSubWord_of_outOfRange hi]; rfl
  · rw [exec_setswcS, withSubWord_of_outOfRange hi]; rfl

end Sys2Proof.Machine
end

section
/-! Carry operations: an adder or a subtractor gives a limb and a flag that are together the exact
signed sum (R130, R132), so doing one in two steps loses nothing (R131, R133). -/

namespace Sys2Proof.Machine

/-- A command that ends with a limb and a flag, as ADC, SBB, ADD.ovf and SUB.ovf do. -/
def State.answerFlagged (s : State) {n : Nat} (limb : BitVec n × Bool) : Result :=
  s.answer (.done (Response.flagged (zext limb.1) limb.2))

/-- Answering a limb and a flag, in the terms of the statements. -/
theorem answerFlagged_eq (s : State) {n : Nat} (limb : BitVec n × Bool) :
    s.answerFlagged limb = .next (completed s (portOf limb.1.toNat) 0 limb.2 true) := by
  rw [State.answerFlagged, State.answer, setResponse_flagged, zext_eq]

/-- The result is the limb, and the flag is its flag. -/
theorem result_and_flag_of_answerFlagged {x : Result} {s : State} {n : Nat}
    {limb : BitVec n × Bool} (h : x = s.answerFlagged limb) :
    resultOf x = some (zext limb.1) ∧ flagOf x = some limb.2 :=
  h ▸ ⟨rfl, rfl⟩

/-- The difference of the subtractor. -/
theorem sbbBits_fst {n : Nat} (x y : BitVec n) (c : Bool) :
    (sbbBits x y c).1.toNat = (((x.toNat : Int) - y.toNat - c.toNat) % (2 : Int) ^ n).toNat :=
  ofInt_toNat _ _

/-- Policy `.ovf` answers the exact sum of two limbs as ADC does without a carry in (R130, R152). -/
theorem policyAnswer_ovf_exactAdd {n : Nat} (x y : BitVec n) :
    policyAnswer .ovf (exactAdd x y) =
      .done (Response.flagged (zext (adcBits x y false).1) (adcBits x y false).2) := by
  have hwrapped : (exactInt n ((x.toNat : Int) + y.toNat)).wrapped = (adcBits x y false).1 :=
    BitVec.eq_of_toNat_eq
      ((exactInt_nat_wrapped n (x.toNat + y.toNat)).trans (adcBits_fst x y false).symm)
  have hflag : ((exactInt n ((x.toNat : Int) + y.toNat)).place != .inside) =
      (adcBits x y false).2 := by
    rw [Bool.eq_iff_iff, bne_iff_ne, ne_eq, exactInt, placeOf_inside, adcBits_snd, decide_eq_true_iff,
      maxNat, Bool.toNat_false]
    omega
  simp only [exactAdd, policyAnswer, hwrapped, hflag]

/-- Policy `.ovf` answers the exact difference of two limbs as SBB does without a borrow in (R132,
R157). -/
theorem policyAnswer_ovf_exactSub {n : Nat} (x y : BitVec n) :
    policyAnswer .ovf (exactSub x y) =
      .done (Response.flagged (zext (sbbBits x y false).1) (sbbBits x y false).2) := by
  have hwrapped : (exactInt n ((x.toNat : Int) - y.toNat)).wrapped = (sbbBits x y false).1 := by
    simp [exactInt, sbbBits]
  have hflag : ((exactInt n ((x.toNat : Int) - y.toNat)).place != .inside) =
      (sbbBits x y false).2 := by
    have hx := x.isLt
    rw [Bool.eq_iff_iff, bne_iff_ne, ne_eq, exactInt, placeOf_inside, sbbBits_snd, decide_eq_true_iff,
      maxNat, Bool.toNat_false]
    omega
  simp only [exactSub, policyAnswer, hwrapped, hflag]

/-- ADD.ovf is ADC without a carry in. -/
theorem exec_addOvf_eq_answerFlagged (w : Width) (s : State) :
    exec (.addOvf w) s = s.answerFlagged (adcBits (s.opA w) (s.opB w) false) :=
  (exec_addOvf w s).trans (congrArg s.answer (policyAnswer_ovf_exactAdd _ _))

/-- SUB.ovf is SBB without a borrow in. -/
theorem exec_subOvf_eq_answerFlagged (w : Width) (s : State) :
    exec (.subOvf w) s = s.answerFlagged (sbbBits (s.opA w) (s.opB w) false) :=
  (exec_subOvf w s).trans (congrArg s.answer (policyAnswer_ovf_exactSub _ _))

/-- Limb and flag are together the exact signed sum of the operands and the flag in: `ε` is 1 for the
adder and -1 for the subtractor. -/
def CarryOp (ε : Int) (op : ∀ {n : Nat}, BitVec n → BitVec n → Bool → BitVec n × Bool) : Prop :=
  ∀ {n : Nat} (x y : BitVec n) (c : Bool),
    ((op x y c).1.toNat : Int) + ε * (op x y c).2.toNat * 2 ^ n = x.toNat + ε * (y.toNat + c.toNat)

/-- The adder is a carry operation. -/
theorem carryOp_adcBits : CarryOp 1 adcBits := by
  intro n x y c
  have hsum : ((adcBits x y c).2.toNat : Int) * 2 ^ n + (adcBits x y c).1.toNat =
      x.toNat + y.toNat + c.toNat := by exact_mod_cast adcBits_sum x y c
  linear_combination hsum

/-- The subtractor is a carry operation. -/
theorem carryOp_sbbBits : CarryOp (-1) sbbBits := by
  intro n x y c
  linear_combination sbbBits_sum x y c

/-- Limb and carry are fixed by the number they stand for together. -/
theorem limb_and_carry_unique {ε : Int} (hε : ε ≠ 0) {n : Nat} {r r' : BitVec n} {f f' : Nat}
    (h : (r.toNat : Int) + ε * f * 2 ^ n = r'.toNat + ε * f' * 2 ^ n) : r = r' ∧ f = f' := by
  have hlimb (v : BitVec n) (g : Int) : ((v.toNat : Int) + g * 2 ^ n) % 2 ^ n = v.toNat := by
    rw [Int.add_mul_emod_self_right, Int.emod_eq_of_lt (by omega) (by exact_mod_cast v.isLt)]
  have hr : (r.toNat : Int) = r'.toNat := by rw [← hlimb r (ε * f), h, hlimb]
  have hf : ε * (f : Int) = ε * f' := by
    rw [hr] at h
    exact mul_right_cancel₀ (by positivity) (add_left_cancel h)
  exact ⟨BitVec.eq_of_toNat_eq (by exact_mod_cast hr), by exact_mod_cast mul_left_cancel₀ hε hf⟩

/-- A carry that counts two carries is their OR, and the two are never both set. -/
theorem carry_eq_or_of_toNat_eq_add :
    ∀ {f f1 f2 : Bool}, f.toNat = f1.toNat + f2.toNat → f = (f1 || f2) ∧ (f1 && f2) = false := by
  decide

/-- A carry operation in two steps, the flag in being the second operand `z` of the second step: the
same limb, and the OR of two flags that are never both set (R131, R133). -/
theorem CarryOp.two_steps {ε : Int} (hε : ε ≠ 0)
    {op : ∀ {n : Nat}, BitVec n → BitVec n → Bool → BitVec n × Bool} (hop : CarryOp ε op)
    {n : Nat} (x y z : BitVec n) {c : Bool} (hz : z.toNat = c.toNat) :
    (op x y c).1 = (op (op x y false).1 z false).1 ∧
    (op x y c).2 = ((op x y false).2 || (op (op x y false).1 z false).2) ∧
    ((op x y false).2 && (op (op x y false).1 z false).2) = false := by
  have hfirst := hop x y false
  have hsecond := hop (op x y false).1 z false
  rw [Bool.toNat_false] at hfirst hsecond
  rw [hz] at hsecond
  have hsame : ((op x y c).1.toNat : Int) + ε * (op x y c).2.toNat * 2 ^ n =
      (op (op x y false).1 z false).1.toNat +
        ε * ((op x y false).2.toNat + (op (op x y false).1 z false).2.toNat : Nat) * 2 ^ n := by
    push_cast at hfirst hsecond ⊢
    linear_combination hop x y c - hfirst - hsecond
  obtain ⟨hlimb, hcount⟩ := limb_and_carry_unique hε hsame
  exact ⟨hlimb, carry_eq_or_of_toNat_eq_add hcount⟩

/-- A value of the width in force, driven on port a, is read back as operand A. -/
theorem opA_drive_zext (s : State) (w : Width) (v : BitVec (s.width w)) (b : Port) :
    (s.drive (zext v) b).opA w = v :=
  (BitVec.setWidth_setWidth_of_le v (width_le s.params.pw w)).trans (BitVec.setWidth_eq v)

/-- A flag, driven on port b, is read back as operand B. -/
theorem opB_drive_flag (s : State) (w : Width) (a : Port) (c : Bool) :
    ((s.drive a (portOf c.toNat)).opB w).toNat = c.toNat := by
  have hwidth : 2 ^ 1 ≤ 2 ^ s.width w := Nat.pow_le_pow_right (by decide) (width_pos s w)
  have hbit : c.toNat ≤ 1 := c.toNat_le
  calc ((s.drive a (portOf c.toNat)).opB w).toNat
      = (portOf c.toNat).toNat % 2 ^ s.width w := opB_toNat _ w
    _ = c.toNat := by rw [portOf_toNat _ (by omega), Nat.mod_eq_of_lt (by omega)]

/-- The command `carry` gives what `ovf` of A and B and then `ovf` of that and the flag in give, with
the two flags ORed and never both set: one half of the statement about R131 and R133. -/
def IsTwoOverflowSteps (carry ovf : Instr) (s : State) : Prop :=
  ∃ r1 f1 r2 f2, resultOf (exec ovf s) = some r1 ∧ flagOf (exec ovf s) = some f1 ∧
    resultOf (exec ovf (s.drive r1 (portOf s.ports.cin.toNat))) = some r2 ∧
    flagOf (exec ovf (s.drive r1 (portOf s.ports.cin.toNat))) = some f2 ∧
    resultOf (exec carry s) = some r2 ∧ flagOf (exec carry s) = some (f1 || f2) ∧
    (f1 && f2) = false

/-- Two commands that answer by one carry operation, with the flag in and without. -/
theorem isTwoOverflowSteps_of_carryOp {carry ovf : Instr} {w : Width} {ε : Int} (hε : ε ≠ 0)
    {op : ∀ {n : Nat}, BitVec n → BitVec n → Bool → BitVec n × Bool} (hop : CarryOp ε op)
    (hcarry : ∀ s : State, exec carry s = s.answerFlagged (op (s.opA w) (s.opB w) s.ports.cin))
    (hovf : ∀ s : State, exec ovf s = s.answerFlagged (op (s.opA w) (s.opB w) false))
    (s : State) : IsTwoOverflowSteps carry ovf s := by
  let first := op (s.opA w) (s.opB w) false
  let between := s.drive (zext first.1) (portOf s.ports.cin.toNat)
  have hsecond : exec ovf between = between.answerFlagged (op first.1 (between.opB w) false) := by
    rw [hovf, opA_drive_zext s w first.1]
    rfl
  obtain ⟨hlimb, hflag, hexcl⟩ :=
    hop.two_steps hε (s.opA w) (s.opB w) (between.opB w) (opB_drive_flag s w _ s.ports.cin)
  obtain ⟨hr1, hf1⟩ := result_and_flag_of_answerFlagged (hovf s)
  obtain ⟨hr2, hf2⟩ := result_and_flag_of_answerFlagged hsecond
  obtain ⟨hr, hf⟩ := result_and_flag_of_answerFlagged (hcarry s)
  rw [hlimb] at hr
  rw [hflag] at hf
  exact ⟨_, _, _, _, hr1, hf1, hr2, hf2, hr, hf, hexcl⟩

end Sys2Proof.Machine
end

section
/-! The obligations of the carry-chain chapter (`41_carry_chain.md`). -/

namespace Sys2Proof.Machine

/-- Settles O29: the adder's limb and carry over the numbers on the ports. -/
theorem adcGivesSumAndCarry : Obligations.AdcGivesSumAndCarry := by
  unfold Obligations.AdcGivesSumAndCarry
  intro s w n e
  calc exec (.adc w) s
      = s.answerFlagged (adcBits (s.opA w) (s.opB w) s.ports.cin) := exec_adc w s
    _ = _ := by rw [answerFlagged_eq, adcBits_fst, adcBits_snd, opA_toNat, opB_toNat]

/-- Settles O30: the subtractor's limb and borrow over the numbers on the ports. -/
theorem sbbGivesDifferenceAndBorrow : Obligations.SbbGivesDifferenceAndBorrow := by
  unfold Obligations.SbbGivesDifferenceAndBorrow
  intro s w n e
  calc exec (.sbb w) s
      = s.answerFlagged (sbbBits (s.opA w) (s.opB w) s.ports.cin) := exec_sbb w s
    _ = _ := by rw [answerFlagged_eq, sbbBits_fst, sbbBits_snd, opA_toNat, opB_toNat]

/-- Settles O31: ADC and ADD.ovf answer by the adder, SBB and SUB.ovf by the subtractor, and both are
carry operations. -/
theorem carryChainIsTwoOverflowSteps : Obligations.CarryChainIsTwoOverflowSteps := by
  unfold Obligations.CarryChainIsTwoOverflowSteps
  exact fun s w =>
    ⟨isTwoOverflowSteps_of_carryOp one_ne_zero carryOp_adcBits (exec_adc w)
      (exec_addOvf_eq_answerFlagged w) s,
    isTwoOverflowSteps_of_carryOp (by decide) carryOp_sbbBits (exec_sbb w)
      (exec_subOvf_eq_answerFlagged w) s⟩

end Sys2Proof.Machine
end

section
/-! The shift-and-add multiplier (R141, R142, R143): what each operation on the `(low, high)`
accumulator does to the number it stands for, as long as that number stays within two limbs. -/

namespace Sys2Proof.Machine

/-- The number a `(low, high)` accumulator stands for (R142). -/
def accNat {n : Nat} (acc : BitVec n × BitVec n) : Nat := acc.2.toNat * 2 ^ n + acc.1.toNat

/-- The accumulator shifted left by one, the bit leaving `low` entering `high` (R141). -/
def accShift {n : Nat} (acc : BitVec n × BitVec n) : BitVec n × BitVec n :=
  (acc.1 <<< 1, acc.2 <<< 1 ||| BitVec.ofNat n acc.1.msb.toNat)

/-- A limb added into `low`, its carry into `high` (R141, R143). -/
def accAdd {n : Nat} (acc : BitVec n × BitVec n) (z : BitVec n) : BitVec n × BitVec n :=
  ((adcBits acc.1 z false).1, BitVec.ofNat n (acc.2.toNat + (adcBits acc.1 z false).2.toNat))

/-- An iteration of R141 is a shift and, where the multiplier's bit is set, an addition. -/
theorem mulStep_eq {n : Nat} (x : BitVec n) (bit : Bool) (acc : BitVec n × BitVec n) :
    mulStep x bit acc = if bit then accAdd (accShift acc) x else accShift acc := rfl

/-- MULC's result is the product with the carry limb added into the pair (R143). -/
theorem mulCarry_eq {n : Nat} (x y z : BitVec n) : mulCarry x y z = accAdd (mulWide x y) z := rfl

/-- The bit that a left shift by one pushes out is the top bit. -/
theorem two_mul_toNat_eq_msb {n : Nat} (hn : 0 < n) (x : BitVec n) :
    2 * x.toNat = x.msb.toNat * 2 ^ n + (x <<< 1).toNat := by
  have hpow : 2 ^ n = 2 * 2 ^ (n - 1) := (mul_pow_sub_one hn.ne' 2).symm
  have hx := x.isLt
  have hshift : (x <<< 1).toNat = 2 * x.toNat % 2 ^ n := by
    rw [BitVec.toNat_shiftLeft, Nat.shiftLeft_eq, pow_one, mul_comm]
  rw [hshift, BitVec.msb_eq_decide]
  by_cases htop : 2 ^ (n - 1) ≤ x.toNat
  · rw [Nat.mod_eq_sub_mod (by omega), Nat.mod_eq_of_lt (by omega)]
    simp only [htop, decide_true, Bool.toNat_true]
    omega
  · rw [Nat.mod_eq_of_lt (by omega)]
    simp only [htop, decide_false, Bool.toNat_false]
    omega

/-- A bit put below a value shifted left by one, where nothing is pushed out. -/
theorem shiftLeft_one_or_toNat {n : Nat} {x : BitVec n} {b : Bool}
    (h : 2 * x.toNat + b.toNat < 2 ^ n) :
    (x <<< 1 ||| BitVec.ofNat n b.toNat).toNat = 2 * x.toNat + b.toNat := by
  rw [BitVec.toNat_or, BitVec.toNat_shiftLeft, BitVec.toNat_ofNat, Nat.shiftLeft_eq,
    Nat.mod_eq_of_lt (by omega), Nat.mod_eq_of_lt (by omega), ← Nat.shiftLeft_eq,
    ← Nat.shiftLeft_add_eq_or_of_lt b.toNat_lt, Nat.shiftLeft_eq, pow_one, mul_comm]

/-- The shift doubles the number, as long as no bit leaves `high`. -/
theorem accNat_accShift {n : Nat} (hn : 0 < n) {acc : BitVec n × BitVec n}
    (h : 2 * accNat acc < 2 ^ n * 2 ^ n) : accNat (accShift acc) = 2 * accNat acc := by
  have hlow := two_mul_toNat_eq_msb hn acc.1
  have hsum : 2 * accNat acc =
      (2 * acc.2.toNat + acc.1.msb.toNat) * 2 ^ n + (acc.1 <<< 1).toNat := by
    rw [accNat, mul_add, hlow]
    ring
  have hhigh : 2 * acc.2.toNat + acc.1.msb.toNat < 2 ^ n :=
    Nat.lt_of_mul_lt_mul_right (a := 2 ^ n) (by omega)
  rw [hsum, accNat, accShift, shiftLeft_one_or_toNat hhigh]

/-- The addition adds the limb, as long as the increment of `high` does not wrap. -/
theorem accNat_accAdd {n : Nat} {acc : BitVec n × BitVec n} {z : BitVec n}
    (h : accNat acc + z.toNat < 2 ^ n * 2 ^ n) : accNat (accAdd acc z) = accNat acc + z.toNat := by
  have hlow := adcBits_sum acc.1 z false
  have hsum : accNat acc + z.toNat =
      (acc.2.toNat + (adcBits acc.1 z false).2.toNat) * 2 ^ n + (adcBits acc.1 z false).1.toNat := by
    rw [Bool.toNat_false] at hlow
    rw [accNat]
    linarith
  have hhigh : acc.2.toNat + (adcBits acc.1 z false).2.toNat < 2 ^ n :=
    Nat.lt_of_mul_lt_mul_right (a := 2 ^ n) (by omega)
  rw [hsum, accNat, accAdd, BitVec.toNat_ofNat, Nat.mod_eq_of_lt hhigh]

/-- One iteration: the number is doubled, and the multiplicand added where the bit is set. -/
theorem accNat_mulStep {n : Nat} (hn : 0 < n) {x : BitVec n} {bit : Bool}
    {acc : BitVec n × BitVec n} (h : 2 * accNat acc + x.toNat * bit.toNat < 2 ^ n * 2 ^ n) :
    accNat (mulStep x bit acc) = 2 * accNat acc + x.toNat * bit.toNat := by
  have hshift : accNat (accShift acc) = 2 * accNat acc := accNat_accShift hn (by omega)
  rw [mulStep_eq]
  cases bit with
  | false => simpa using hshift
  | true =>
    rw [Bool.toNat_true, mul_one] at h ⊢
    rw [if_pos rfl, accNat_accAdd (hshift ▸ h), hshift]

/-- One more bit of the multiplier: `floor(y / 2^j)` is twice `floor(y / 2^(j+1))` and bit `j`. -/
theorem div_two_pow_eq_two_mul_add {n : Nat} (y : BitVec n) (j : Nat) :
    y.toNat / 2 ^ j = 2 * (y.toNat / 2 ^ (j + 1)) + (y.getLsbD j).toNat := by
  rw [BitVec.getLsbD, Nat.toNat_testBit, pow_succ, ← Nat.div_div_eq_div_mul, Nat.div_add_mod]

/-- The product of two limbs and a carry limb fits two limbs (R144). -/
theorem mul_add_lt_two_pow_mul {N a b c : Nat} (ha : a < N) (hb : b < N) (hc : c < N) :
    a * b + c < N * N := by
  obtain ⟨m, rfl⟩ : ∃ m, N = m + 1 := ⟨N - 1, by omega⟩
  have hprod : a * b ≤ m * m := Nat.mul_le_mul (by omega) (by omega)
  linarith

/-- The invariant of R142 through the iteration for bit `j`. -/
theorem accNat_mulStep_of_invariant {n j : Nat} (hj : j < n) (x y : BitVec n)
    {acc : BitVec n × BitVec n} (hacc : accNat acc = x.toNat * (y.toNat / 2 ^ (j + 1))) :
    accNat (mulStep x (y.getLsbD j) acc) = x.toNat * (y.toNat / 2 ^ j) := by
  have hnext : 2 * accNat acc + x.toNat * (y.getLsbD j).toNat = x.toNat * (y.toNat / 2 ^ j) := by
    rw [hacc, div_two_pow_eq_two_mul_add y j]
    ring
  have hbound : x.toNat * (y.toNat / 2 ^ j) < 2 ^ n * 2 ^ n :=
    Nat.mul_lt_mul'' x.isLt ((Nat.div_le_self _ _).trans_lt y.isLt)
  rw [accNat_mulStep (by omega) (hnext ▸ hbound), hnext]

/-- The loop over the bits below `j` completes the product (R142). -/
theorem accNat_mulLoop {n j : Nat} (hj : j ≤ n) (x y : BitVec n) {acc : BitVec n × BitVec n}
    (hacc : accNat acc = x.toNat * (y.toNat / 2 ^ j)) :
    accNat (mulLoop x y j acc) = x.toNat * y.toNat := by
  induction j generalizing acc with
  | zero => simpa [mulLoop] using hacc
  | succ j ih => exact ih (by omega) (accNat_mulStep_of_invariant hj x y hacc)

/-- The algorithm of R141 computes the product (R142): above the highest set bit the multiplier has
nothing. -/
theorem accNat_mulWide {n : Nat} (x y : BitVec n) : accNat (mulWide x y) = x.toNat * y.toNat := by
  obtain ⟨hle, hlt, -⟩ := bitLength_spec y
  refine accNat_mulLoop hle x y ?_
  rw [Nat.div_eq_of_lt hlt]
  simp [accNat]

/-- MULC's pair is the product and the carry limb together (R143). -/
theorem accNat_mulCarry {n : Nat} (x y z : BitVec n) :
    accNat (mulCarry x y z) = x.toNat * y.toNat + z.toNat := by
  have hprod := accNat_mulWide x y
  rw [mulCarry_eq, accNat_accAdd, hprod]
  rw [hprod]
  exact mul_add_lt_two_pow_mul x.isLt y.isLt z.isLt

/-- Answering a pair of limbs, in the terms of the statements. -/
theorem answer_pair_eq_completed (s : State) {n : Nat} {acc : BitVec n × BitVec n} {e : Nat}
    (h : accNat acc = e) :
    s.answer (.done (Response.pair (zext acc.1) (zext acc.2))) =
      .next (completed s (portOf (e % 2 ^ n)) (portOf (e / 2 ^ n)) false true) := by
  obtain ⟨hlow, hhigh⟩ := split_pair acc.1 acc.2 e h
  rw [State.answer, setResponse_pair, zext_eq, zext_eq, hlow, hhigh]

end Sys2Proof.Machine
end

section
/-! The host's row of MULC commands (R145), from what one command of it gives. -/

namespace Sys2Proof.Machine

/-- One command of the row: its two limbs together are the exact product plus the carry limb. -/
theorem hostCommand_mulc (w : Width) (s : State) (x m h : Port) :
    ∃ t resp, hostCommand s (.mulc w) x m h false = some (t, resp) ∧ t.width w = s.width w ∧
      resp.r.toNat < 2 ^ s.width w ∧ resp.r2.toNat < 2 ^ s.width w ∧
      resp.r2.toNat * 2 ^ s.width w + resp.r.toNat =
        low x (s.width w) * low m (s.width w) + low h (s.width w) := by
  let u := s.presented (.mulc w) x m h false
  let acc := mulCarry (u.opA w) (u.opB w) (u.opC w)
  have hlow : (zext acc.1).toNat = acc.1.toNat := zext_toNat acc.1
  have hhigh : (zext acc.2).toNat = acc.2.toNat := zext_toNat acc.2
  have hsum := accNat_mulCarry (u.opA w) (u.opB w) (u.opC w)
  rw [opA_toNat, opB_toNat, opC_toNat] at hsum
  refine ⟨_, _, hostCommand_of_exec (decodeOfEncodeIsTheInstruction _ _ rfl) (exec_mulc w u), rfl,
    hlow ▸ acc.1.isLt, hhigh ▸ acc.2.isLt, ?_⟩
  calc (zext acc.2).toNat * 2 ^ s.width w + (zext acc.1).toNat
      = accNat acc := by rw [hlow, hhigh]; rfl
    _ = _ := hsum

/-- The row: its limbs are together the exact product by one limb, plus the first carry limb. -/
theorem hostMulRow_sum (w : Width) (m : Port) (limbs : List Port) (s : State) (h : Port)
    (hh : h.toNat < 2 ^ s.width w) :
    ∃ rs, hostMulRow w m limbs h s = some rs ∧ rs.length = limbs.length + 1 ∧
      (∀ r ∈ rs, r.toNat < 2 ^ s.width w) ∧
      limbValue (s.width w) rs =
        low m (s.width w) * limbValue (s.width w) limbs + h.toNat := by
  induction limbs generalizing s h with
  | nil => exact ⟨[h], rfl, rfl, by simpa using hh, by simp [limbValue, low, Nat.mod_eq_of_lt hh]⟩
  | cons x limbs ih =>
    obtain ⟨t, resp, hcmd, hwidth, hr, hr2, hsum⟩ := hostCommand_mulc w s x m h
    obtain ⟨rs, hrow, hlen, hrs, hrest⟩ := ih t resp.r2 (hwidth ▸ hr2)
    rw [hwidth] at hrs hrest
    refine ⟨resp.r :: rs, by simp only [hostMulRow, hcmd, hrow, Option.map_some], by simp [hlen],
      by simpa [hr] using hrs, ?_⟩
    have hlowr : low resp.r (s.width w) = resp.r.toNat := Nat.mod_eq_of_lt hr
    have hlowh : low h (s.width w) = h.toNat := Nat.mod_eq_of_lt hh
    rw [limbValue, limbValue, hlowr, hrest]
    linear_combination hsum + hlowh

end Sys2Proof.Machine
end

section
/-! The obligations of the multiply chapter (`42_multiply.md`). -/

namespace Sys2Proof.Machine

/-- Settles O34: the pair the algorithm leaves is the product, split into its halves. -/
theorem mulwGivesTheFullProduct : Obligations.MulwGivesTheFullProduct := by
  unfold Obligations.MulwGivesTheFullProduct
  intro s w n e
  have hprod : accNat (mulWide (s.opA w) (s.opB w)) = e := by
    rw [accNat_mulWide, opA_toNat, opB_toNat]
  rw [exec_mulw, answer_pair_eq_completed s hprod]

/-- Settles O36: the pair is the product plus the carry limb, which fits two limbs. -/
theorem mulcAddsTheCarryLimb : Obligations.MulcAddsTheCarryLimb := by
  unfold Obligations.MulcAddsTheCarryLimb
  intro s w n e
  have hsum : accNat (mulCarry (s.opA w) (s.opB w) (s.opC w)) = e := by
    rw [accNat_mulCarry, opA_toNat, opB_toNat, opC_toNat]
  constructor
  · rw [exec_mulc, answer_pair_eq_completed s hsum]
  · exact Nat.div_lt_of_lt_mul (mul_add_lt_two_pow_mul (low_lt _ n) (low_lt _ n) (low_lt _ n))

/-- Settles O37, by induction on the limbs. -/
theorem chainedMulcMultipliesByOneLimb : Obligations.ChainedMulcMultipliesByOneLimb := by
  unfold Obligations.ChainedMulcMultipliesByOneLimb
  intro w s limbs m h n hh
  exact hostMulRow_sum w m limbs s h hh

/-- Settles O35: the iteration doubles the accumulator and adds the multiplicand times bit `j`. -/
theorem mulStepKeepsTheLoopInvariant : Obligations.MulStepKeepsTheLoopInvariant := by
  unfold Obligations.MulStepKeepsTheLoopInvariant
  intro n x y j acc hj hacc
  exact accNat_mulStep_of_invariant hj x y hacc

end Sys2Proof.Machine
end

section
/-! The five policies (R150) over an exact result given as an integer (R8, R187): what each answers where
the result is representable, and where it lies below or above. -/

namespace Sys2Proof.Machine

/-- `MAX_n` as an integer (R7). -/
theorem natCast_maxNat (n : Nat) : (maxNat n : Int) = (2 : Int) ^ n - 1 :=
  Nat.cast_pred (Nat.two_pow_pos n)

/-- Representable is from 0 to below `2^n` (R8). -/
theorem representable_iff {n : Nat} {e : Int} :
    representable n e = true ↔ 0 ≤ e ∧ e < (2 : Int) ^ n := by
  rw [representable, Bool.and_eq_true, decide_eq_true_iff, decide_eq_true_iff, natCast_maxNat,
    Int.le_sub_one_iff]

/-- A natural exact result is representable up to `MAX_n` (R8). -/
theorem representable_natCast {n m : Nat} (h : m < 2 ^ n) : representable n (m : Int) = true :=
  representable_iff.2 ⟨Int.natCast_nonneg m, by exact_mod_cast h⟩

/-- An exact result is placed inside where it is representable. -/
theorem exactInt_place_inside {n : Nat} {e : Int} :
    (exactInt n e).place = .inside ↔ representable n e = true := by
  rw [exactInt, placeOf_inside, representable, Bool.and_eq_true, decide_eq_true_iff,
    decide_eq_true_iff]

/-- A wrapped exact result on a port. -/
theorem zext_exactInt (n : Nat) (e : Int) :
    zext (exactInt n e).wrapped = portOf (e % 2 ^ n).toNat := by
  rw [zext_eq, exactInt, ofInt_toNat]

/-- Wrapping leaves a representable result as it is. -/
theorem emod_of_representable {n : Nat} {e : Int} (h : representable n e = true) :
    e % 2 ^ n = e :=
  let ⟨hnonneg, hlt⟩ := representable_iff.1 h
  Int.emod_eq_of_lt hnonneg hlt

section
variable (s : State) {n : Nat} {e : Int}

/-- `.wrap` answers the wrapped result. -/
theorem answer_wrap_exactInt :
    s.answer (policyAnswer .wrap (some (exactInt n e))) =
      .next (completed s (portOf (e % 2 ^ n).toNat) 0 false true) := by
  rw [policyAnswer, State.answer, setResponse_value, zext_exactInt]

/-- `.ovf` answers the wrapped result, and flags what is not representable. -/
theorem answer_ovf_exactInt :
    s.answer (policyAnswer .ovf (some (exactInt n e))) =
      .next (completed s (portOf (e % 2 ^ n).toNat) 0 (!representable n e) true) := by
  have hflag : ((exactInt n e).place != .inside) = !representable n e := by
    rw [Bool.eq_iff_iff, bne_iff_ne, ne_eq, exactInt_place_inside, Bool.not_eq_true,
      Bool.not_eq_true']
  rw [policyAnswer, State.answer, setResponse_flagged, zext_exactInt, hflag]

/-- Every policy answers a representable result itself. -/
theorem answer_of_representable (p : Policy) (h : representable n e = true) :
    s.answer (policyAnswer p (some (exactInt n e))) =
      .next (completed s (portOf e.toNat) 0 false true) := by
  have hin := exactInt_place_inside.2 h
  have hz : zext (exactInt n e).wrapped = portOf e.toNat := by
    rw [zext_exactInt, emod_of_representable h]
  cases p with
  | wrap => rw [answer_wrap_exactInt, emod_of_representable h]
  | ovf => rw [answer_ovf_exactInt, emod_of_representable h, h, Bool.not_true]
  | chk => rw [policyAnswer, if_pos hin, State.answer, setResponse_value, hz]
  | unchk => rw [policyAnswer, if_pos hin, State.answer, setResponse_value, hz]
  | sat => rw [policyAnswer, clamped, hin, State.answer, setResponse_value, hz]

/-- `.chk` answers absent where the result is not representable. -/
theorem answer_chk_of_not_representable (h : representable n e = false) :
    s.answer (policyAnswer .chk (some (exactInt n e))) = .next (completed s 0 0 false false) := by
  rw [policyAnswer, if_neg (by simp [exactInt_place_inside, h]), State.answer, setResponse_absent]

/-- `.unchk` aborts with OVERFLOW where the result is not representable. -/
theorem answer_unchk_of_not_representable (h : representable n e = false) :
    AbortsWith (s.answer (policyAnswer .unchk (some (exactInt n e)))) s .overflow := by
  rw [policyAnswer, if_neg (by simp [exactInt_place_inside, h])]
  exact abortsWith_takeAbort s .overflow

/-- `.sat` answers 0 for a negative result. -/
theorem answer_sat_of_neg (h : e < 0) :
    s.answer (policyAnswer .sat (some (exactInt n e))) = .next (completed s 0 0 false true) := by
  have hplace : (exactInt n e).place = .below := (placeOf_below n e).2 h
  rw [policyAnswer, clamped, hplace, State.answer, setResponse_value, zext_zero]

/-- `.sat` answers `MAX_n` for a result above it. -/
theorem answer_sat_of_le (h : (2 : Int) ^ n ≤ e) :
    s.answer (policyAnswer .sat (some (exactInt n e))) =
      .next (completed s (portOf (2 ^ n - 1)) 0 false true) := by
  have hplace : (exactInt n e).place = .above := by
    rw [exactInt, placeOf_above, natCast_maxNat]
    omega
  rw [policyAnswer, clamped, hplace, State.answer, setResponse_value, zext_eq, BitVec.toNat_allOnes]

end

/-- A difference of two limbs, wrapped: `2^n` is added where it is negative (R156). -/
theorem sub_emod_two_pow_toNat {n x y : Nat} (hx : x < 2 ^ n) (hy : y < 2 ^ n) :
    (((x : Int) - y) % 2 ^ n).toNat = if y ≤ x then x - y else x + 2 ^ n - y := by
  have hpow : ((2 ^ n : Nat) : Int) = (2 : Int) ^ n := by push_cast; rfl
  rw [← hpow]
  split
  · rw [Int.emod_eq_of_lt (by omega) (by omega)]
    omega
  · rw [← Int.add_emod_right, Int.emod_eq_of_lt (by omega) (by omega)]
    omega

/-- A difference of two limbs is representable where it is not negative. -/
theorem representable_sub {n x : Nat} (y : Nat) (hx : x < 2 ^ n) :
    representable n ((x : Int) - y) = decide (y ≤ x) := by
  have hlt : (x : Int) < (2 : Int) ^ n := by exact_mod_cast hx
  rw [Bool.eq_iff_iff, representable_iff, decide_eq_true_iff]
  omega

/-- The five policies over the difference of two limbs. -/
theorem answer_policy_sub (s : State) {n x y : Nat} (hx : x < 2 ^ n) (hy : y < 2 ^ n) :
    let d := if y ≤ x then x - y else x + 2 ^ n - y
    let e := some (exactInt n ((x : Int) - y))
    s.answer (policyAnswer .wrap e) = .next (completed s (portOf d) 0 false true) ∧
    s.answer (policyAnswer .ovf e) = .next (completed s (portOf d) 0 (decide (x < y)) true) ∧
    (y ≤ x →
      s.answer (policyAnswer .chk e) = .next (completed s (portOf (x - y)) 0 false true) ∧
      s.answer (policyAnswer .unchk e) = .next (completed s (portOf (x - y)) 0 false true)) ∧
    (x < y →
      s.answer (policyAnswer .chk e) = .next (completed s 0 0 false false) ∧
      AbortsWith (s.answer (policyAnswer .unchk e)) s .overflow) ∧
    s.answer (policyAnswer .sat e) = .next (completed s (portOf (x - y)) 0 false true) := by
  intro d e
  have hrep := representable_sub y hx
  have hfits (p : Policy) (h : y ≤ x) :
      s.answer (policyAnswer p e) = .next (completed s (portOf (x - y)) 0 false true) := by
    rw [answer_of_representable s p (hrep.trans (decide_eq_true h)), Int.toNat_sub]
  refine ⟨?_, ?_, fun h => ⟨hfits _ h, hfits _ h⟩, fun h => ?_, ?_⟩
  · rw [answer_wrap_exactInt, sub_emod_two_pow_toNat hx hy]
  · rw [answer_ovf_exactInt, sub_emod_two_pow_toNat hx hy, hrep, ← decide_not]
    simp only [not_le]
    rfl
  · have hneg : representable n ((x : Int) - y) = false := hrep.trans (decide_eq_false (by omega))
    exact ⟨answer_chk_of_not_representable s hneg, answer_unchk_of_not_representable s hneg⟩
  · by_cases h : y ≤ x
    · exact hfits .sat h
    · rw [answer_sat_of_neg s (by omega), Nat.sub_eq_zero_of_le (by omega)]
      rfl

end Sys2Proof.Machine
end

section
/-! The power (R181, R189): square-and-multiply gives the exact power modulo `2^n`, the model's test for
its fit is the comparison with `MAX_n`, and the step-wise power is the same. -/

namespace Sys2Proof.Machine

/-- One more bit of the exponent: the square's power by `floor(k / 2)`, times the base for an odd one. -/
theorem mul_pow_half {n : Nat} (acc base : BitVec n) (k : Nat) :
    (if k % 2 = 1 then acc * base else acc) * (base * base) ^ (k / 2) = acc * base ^ k := by
  have hk : base ^ k = base ^ (k % 2) * (base * base) ^ (k / 2) := by
    rw [← pow_two, ← pow_mul, ← pow_add, Nat.mod_add_div]
  obtain h | h := Nat.mod_two_eq_zero_or_one k
  · rw [if_neg (by omega), hk, h, pow_zero, one_mul]
  · rw [if_pos h, hk, h, pow_one, mul_assoc]

/-- The loop multiplies the accumulator by the power, for an exponent of as many bits as the fuel. -/
theorem powLoop_eq {n : Nat} (fuel : Nat) (acc base : BitVec n) {k : Nat} (hk : k < 2 ^ fuel) :
    powLoop fuel acc base k = acc * base ^ k := by
  induction fuel generalizing acc base k with
  | zero =>
    obtain rfl : k = 0 := by omega
    rw [powLoop, pow_zero, mul_one]
  | succ fuel ih => rw [powLoop, ih _ _ (by omega), mul_pow_half]

/-- Square-and-multiply gives the exact power modulo `2^n`, for every 32-bit exponent. -/
theorem powWrapped_toNat {n : Nat} (x : BitVec n) {k : Nat} (hk : k < 2 ^ 32) :
    (powWrapped x k).toNat = x.toNat ^ k % 2 ^ n := by
  have hpow : powWrapped x k = x ^ k := (powLoop_eq 32 1 x hk).trans (one_mul _)
  rw [hpow]
  exact BitVec.toNat_pow x k

/-- A power of 0 or 1 fits every width. -/
theorem pow_le_max_of_le_one {n a : Nat} (hn : 1 ≤ n) (ha : a ≤ 1) (k : Nat) :
    a ^ k ≤ 2 ^ n - 1 := by
  have hpow : a ^ k ≤ 1 := pow_le_one' ha k
  have hmax : 2 ^ 1 ≤ 2 ^ n := Nat.pow_le_pow_right (by decide) hn
  omega

/-- A base of 2 or more fits with an exponent below the width alone. -/
theorem lt_of_pow_le_max {n a k : Nat} (ha : 2 ≤ a) (h : a ^ k ≤ 2 ^ n - 1) : k < n := by
  have hlt : 2 ^ k < 2 ^ n := by
    have hpow : 2 ^ k ≤ a ^ k := Nat.pow_le_pow_left ha k
    have hpos := Nat.two_pow_pos n
    omega
  exact (Nat.pow_lt_pow_iff_right (by decide)).1 hlt

/-- The model's test is whether the exact power is at most `MAX_n`, though it does not form a huge
one. -/
theorem powFits_iff {n : Nat} (hn : 1 ≤ n) (x : BitVec n) (k : Nat) :
    powFits x k = true ↔ x.toNat ^ k ≤ 2 ^ n - 1 := by
  rw [powFits, Bool.or_eq_true, Bool.and_eq_true, decide_eq_true_iff, decide_eq_true_iff,
    decide_eq_true_iff, maxNat]
  constructor
  · rintro (hbase | ⟨-, hfits⟩)
    · exact pow_le_max_of_le_one hn hbase k
    · exact hfits
  · intro hfits
    by_cases hbase : x.toNat ≤ 1
    · exact .inl hbase
    · exact .inr ⟨lt_of_pow_le_max (by omega) hfits, hfits⟩

/-- The model's exact power is the power over the naturals, for every 32-bit exponent. -/
theorem exactPow_eq {n : Nat} (hn : 1 ≤ n) (x : BitVec n) {k : Nat} (hk : k < 2 ^ 32) :
    exactPow x k = some (exactInt n ((x.toNat ^ k : Nat) : Int)) := by
  have hwrapped : powWrapped x k = (exactInt n ((x.toNat ^ k : Nat) : Int)).wrapped :=
    BitVec.eq_of_toNat_eq ((powWrapped_toNat x hk).trans (exactInt_nat_wrapped n _).symm)
  have hplace : (if powFits x k then .inside else .above) =
      (exactInt n ((x.toNat ^ k : Nat) : Int)).place := by
    simp only [exactInt_nat_place, powFits_iff hn]
  rw [exactPow, hwrapped, hplace]

/-- The step-wise power (R189): the value is the power modulo `2^n`, and some step overflowed exactly
when the exact power does, because a power that overflowed has a base of 2 or more and only grows. -/
theorem powc_eq {n a : Nat} (hn : 1 ≤ n) (k : Nat) :
    powc n a k = (a ^ k % 2 ^ n, decide (¬ a ^ k ≤ 2 ^ n - 1)) := by
  have hpow : 2 ^ 1 ≤ 2 ^ n := Nat.pow_le_pow_right (by decide) hn
  induction k with
  | zero =>
    rw [powc, pow_zero, Nat.mod_eq_of_lt (by omega), decide_eq_false (by omega)]
  | succ k ih =>
    have hvalue : a ^ k % 2 ^ n * a % 2 ^ n = a ^ (k + 1) % 2 ^ n := by rw [Nat.mod_mul_mod, pow_succ]
    have hflag : (decide (¬ a ^ k ≤ 2 ^ n - 1) || decide (a ^ k % 2 ^ n * a > 2 ^ n - 1)) =
        decide (¬ a ^ (k + 1) ≤ 2 ^ n - 1) := by
      by_cases hfits : a ^ k ≤ 2 ^ n - 1
      · rw [Nat.mod_eq_of_lt (by omega), ← pow_succ]
        simp [hfits]
      · have hbase : 1 ≤ a := by
          by_contra hzero
          exact hfits (pow_le_max_of_le_one hn (by omega) k)
        have hgrow : a ^ k ≤ a ^ (k + 1) := Nat.pow_le_pow_right hbase (Nat.le_succ k)
        rw [decide_eq_true hfits, Bool.true_or, decide_eq_true (by omega)]
    simp only [powc, ih, hvalue, hflag]

end Sys2Proof.Machine
end

section
/-! The seven operations at once (R150, R188): each of their commands answers by its policy over the
operation's exact result, an integer made of the numbers on the ports. -/

namespace Sys2Proof.Machine

/-- The model's exact result of an operation in a state (R188); `none` is a zero divisor (R190). -/
def State.aluExact (s : State) (op : AluOp) (w : Width) : Option (Exact (s.width w)) :=
  match op with
  | .add => exactAdd (s.opA w) (s.opB w)
  | .sub => exactSub (s.opA w) (s.opB w)
  | .mul => exactMul (s.opA w) (s.opB w)
  | .div => exactDiv (s.opA w) (s.opB w)
  | .rem => exactRem (s.opA w) (s.opB w)
  | .neg => exactNeg (s.opA w)
  | .pow => exactPow (s.opA w) s.opK

/-- Each of the 35 commands answers by its policy over its operation's exact result. -/
theorem exec_aluInstr (op : AluOp) (p : Policy) (w : Width) (s : State) :
    exec (aluInstr op p w) s = s.answer (policyAnswer p (s.aluExact op w)) := by
  cases op <;> cases p <;> rfl

/-- The exact result of an operation over the numbers it reads (R188). -/
def AluOp.number (op : AluOp) (a b k : Nat) : Int :=
  match op with
  | .add => (a + b : Nat)
  | .sub => (a : Int) - b
  | .mul => (a * b : Nat)
  | .div => (a / b : Nat)
  | .rem => (a % b : Nat)
  | .neg => ((0 : Nat) : Int) - a
  | .pow => (a ^ k : Nat)

/-- The exact result of an operation over the numbers on the ports. -/
def State.aluNumber (s : State) (op : AluOp) (w : Width) : Int :=
  op.number (low s.ports.a (s.width w)) (low s.ports.b (s.width w)) s.ports.k.toNat

/-- The model's exact result is the integer over the numbers on the ports, but for a zero divisor. -/
theorem aluExact_eq {s : State} {op : AluOp} {w : Width}
    (hb : op = .div ∨ op = .rem → low s.ports.b (s.width w) ≠ 0) :
    s.aluExact op w = some (exactInt (s.width w) (s.aluNumber op w)) := by
  rw [State.aluNumber, ← opA_toNat, ← opB_toNat]
  rw [← opB_toNat] at hb
  cases op with
  | add => rw [State.aluExact, exactAdd, AluOp.number, Nat.cast_add]
  | sub => rw [State.aluExact, exactSub, AluOp.number]
  | mul => rw [State.aluExact, exactMul, AluOp.number, Nat.cast_mul]
  | div => rw [State.aluExact, exactDiv, if_neg (hb (.inl rfl)), AluOp.number]
  | rem =>
    rw [State.aluExact, exactRem, if_neg (hb (.inr rfl)), AluOp.number, Int.natCast_mod,
      Int.emod_def, Int.natCast_div]
  | neg => rw [State.aluExact, exactNeg, AluOp.number, Nat.cast_zero, zero_sub]
  | pow => exact exactPow_eq (width_pos s w) _ s.ports.k.isLt

/-- A zero divisor leaves no exact result (R190). -/
theorem aluExact_eq_none {s : State} {op : AluOp} {w : Width} (hop : op = .div ∨ op = .rem)
    (hb : low s.ports.b (s.width w) = 0) : s.aluExact op w = none := by
  rw [← opB_toNat] at hb
  obtain rfl | rfl := hop
  · exact if_pos hb
  · exact if_pos hb

/-- Each command answers by its policy over the integer exact result, but for a zero divisor. -/
theorem exec_aluInstr_eq {s : State} {op : AluOp} {w : Width}
    (hb : op = .div ∨ op = .rem → low s.ports.b (s.width w) ≠ 0) (p : Policy) :
    exec (aluInstr op p w) s =
      s.answer (policyAnswer p (some (exactInt (s.width w) (s.aluNumber op w)))) := by
  rw [exec_aluInstr, aluExact_eq hb]

/-- DIV and REM are representable: neither exceeds the dividend. -/
theorem representable_of_divides (s : State) {op : AluOp} (w : Width)
    (hop : op = .div ∨ op = .rem) : representable (s.width w) (s.aluNumber op w) = true := by
  have ha := low_lt s.ports.a (s.width w)
  obtain rfl | rfl := hop
  · exact representable_natCast ((Nat.div_le_self _ _).trans_lt ha)
  · exact representable_natCast ((Nat.mod_le _ _).trans_lt ha)

/-- SUB and NEG are below `2^n`, so they can leave the range below only. -/
theorem aluNumber_lt (s : State) {op : AluOp} (w : Width) (hop : op = .sub ∨ op = .neg) :
    s.aluNumber op w < (2 : Int) ^ s.width w := by
  have ha : (low s.ports.a (s.width w) : Int) < (2 : Int) ^ s.width w := by
    exact_mod_cast low_lt s.ports.a (s.width w)
  obtain rfl | rfl := hop <;> simp only [State.aluNumber, AluOp.number] <;> omega

/-- The other five are natural numbers, so they can leave the range above only. -/
theorem aluNumber_nonneg (s : State) {op : AluOp} (w : Width) (hop : ¬ (op = .sub ∨ op = .neg)) :
    0 ≤ s.aluNumber op w := by
  cases op with
  | sub => exact absurd (.inl rfl) hop
  | neg => exact absurd (.inr rfl) hop
  | add | mul | div | rem | pow => exact Int.natCast_nonneg _

/-- DIV and REM under the five policies (R190, R243): the exact result for a non-zero divisor; for a zero
divisor absent under `.chk` and an abort under the other four. -/
theorem divides_under_policies (s : State) {op : AluOp} (w : Width) (hop : op = .div ∨ op = .rem) :
    (low s.ports.b (s.width w) ≠ 0 →
      ∀ i ∈ [aluInstr op .wrap w, aluInstr op .ovf w, aluInstr op .chk w, aluInstr op .unchk w,
          aluInstr op .sat w],
        exec i s = .next (completed s (portOf (s.aluNumber op w).toNat) 0 false true)) ∧
    (low s.ports.b (s.width w) = 0 →
      exec (aluInstr op .chk w) s = .next (completed s 0 0 false false) ∧
      ∀ i ∈ [aluInstr op .wrap w, aluInstr op .ovf w, aluInstr op .unchk w, aluInstr op .sat w],
        AbortsWith (exec i s) s .divZero) := by
  refine ⟨fun hb => ?_, fun hb => ?_⟩
  · have hall (p : Policy) : exec (aluInstr op p w) s =
        .next (completed s (portOf (s.aluNumber op w).toNat) 0 false true) := by
      rw [exec_aluInstr_eq (fun _ => hb),
        answer_of_representable s p (representable_of_divides s w hop)]
    simp [hall]
  · have hanswer (p : Policy) : exec (aluInstr op p w) s =
        s.answer (policyAnswer p (none : Option (Exact (s.width w)))) := by
      rw [exec_aluInstr, aluExact_eq_none hop hb]
    have hzero : AbortsWith (s.answer (.abort .divZero)) s .divZero :=
      abortsWith_takeAbort s .divZero
    simp only [hanswer, List.forall_mem_cons, policyAnswer]
    exact ⟨rfl, hzero, hzero, hzero, hzero, nofun⟩

end Sys2Proof.Machine
end

section
/-! The obligations of the policy chapter (`43_policy_alu.md`). -/

namespace Sys2Proof.Machine

/-- Settles O44: the loop's exact power is the power over the naturals (`exactPow_eq`), and the policies
answer a natural exact result as stated. -/
theorem powUnderTheFivePolicies : Obligations.PowUnderTheFivePolicies := by
  unfold Obligations.PowUnderTheFivePolicies
  intro s w n e
  have hexact : exactPow (s.opA w) s.opK = some (exactInt n (e : Int)) := aluExact_eq (op := .pow) nofun
  rw [exec_powWrap, exec_powOvf, exec_powChk, exec_powUnchk, exec_powSat, hexact]
  exact answer_policy_nat s n e _ (exactInt_nat_wrapped n e) (exactInt_nat_place n e)

/-- Settles O46: the value is the wrapped exact result, and the flag says that it is not
representable. -/
theorem policiesAreConsistent : Obligations.PoliciesAreConsistent := by
  unfold Obligations.PoliciesAreConsistent
  intro op s w hb
  let e := s.aluNumber op w
  have hexec := exec_aluInstr_eq hb
  refine ⟨portOf (e % 2 ^ s.width w).toNat, !representable (s.width w) e, ?_, ?_, fun hf => ?_,
    fun hf => ?_⟩
  · rw [hexec, answer_wrap_exactInt]
  · rw [hexec, answer_ovf_exactInt]
  · have hrep : representable (s.width w) e = true := by simpa using hf
    have hall (p : Policy) : exec (aluInstr op p w) s =
        .next (completed s (portOf (e % 2 ^ s.width w).toNat) 0 false true) := by
      rw [hexec, answer_of_representable s p hrep, emod_of_representable hrep]
    exact ⟨hall _, hall _, hall _⟩
  · have hrep : representable (s.width w) e = false := by simpa using hf
    have hdivides : ¬ (op = .div ∨ op = .rem) := fun hop =>
      Bool.false_ne_true (hrep.symm.trans (representable_of_divides s w hop))
    have hout : ¬ (0 ≤ e ∧ e < (2 : Int) ^ s.width w) := by
      rw [← representable_iff, hrep]
      exact Bool.false_ne_true
    obtain ⟨hdiv, hrem⟩ := not_or.1 hdivides
    rw [hexec, hexec, hexec]
    refine ⟨hdiv, hrem, answer_chk_of_not_representable s hrep,
      answer_unchk_of_not_representable s hrep, ?_⟩
    by_cases hop : op = .sub ∨ op = .neg
    · have hlt : e < (2 : Int) ^ s.width w := aluNumber_lt s w hop
      rw [if_pos hop, answer_sat_of_neg s (by omega)]
    · have hnonneg : 0 ≤ e := aluNumber_nonneg s w hop
      rw [if_neg hop, answer_sat_of_le s (by omega)]

/-- Settles O38: the exact sum is a natural number. -/
theorem addUnderTheFivePolicies : Obligations.AddUnderTheFivePolicies := by
  unfold Obligations.AddUnderTheFivePolicies
  intro s w n e
  have hexact : exactAdd (s.opA w) (s.opB w) = some (exactInt n (e : Int)) :=
    aluExact_eq (op := .add) nofun
  rw [exec_addWrap, exec_addOvf, exec_addChk, exec_addUnchk, exec_addSat, hexact]
  exact answer_policy_nat s n e _ (exactInt_nat_wrapped n e) (exactInt_nat_place n e)

/-- Settles O39: the exact difference is that of two limbs. -/
theorem subUnderTheFivePolicies : Obligations.SubUnderTheFivePolicies := by
  unfold Obligations.SubUnderTheFivePolicies
  intro s w n x y d
  have hexact : exactSub (s.opA w) (s.opB w) = some (exactInt n ((x : Int) - y)) :=
    aluExact_eq (op := .sub) nofun
  rw [exec_subWrap, exec_subOvf, exec_subChk, exec_subUnchk, exec_subSat, hexact]
  exact answer_policy_sub s (low_lt _ n) (low_lt _ n)

/-- Settles O40: the exact product is a natural number. -/
theorem mulUnderTheFivePolicies : Obligations.MulUnderTheFivePolicies := by
  unfold Obligations.MulUnderTheFivePolicies
  intro s w n e
  have hexact : exactMul (s.opA w) (s.opB w) = some (exactInt n (e : Int)) :=
    aluExact_eq (op := .mul) nofun
  rw [exec_mulWrap, exec_mulOvf, exec_mulChk, exec_mulUnchk, exec_mulSat, hexact]
  exact answer_policy_nat s n e _ (exactInt_nat_wrapped n e) (exactInt_nat_place n e)

/-- Settles O41: a quotient is representable under every policy, and a zero divisor has none. -/
theorem divUnderTheFivePolicies : Obligations.DivUnderTheFivePolicies := by
  unfold Obligations.DivUnderTheFivePolicies
  exact fun s w => divides_under_policies s w (.inl rfl)

/-- Settles O42: a remainder is representable under every policy, and a zero divisor has none. -/
theorem remUnderTheFivePolicies : Obligations.RemUnderTheFivePolicies := by
  unfold Obligations.RemUnderTheFivePolicies
  exact fun s w => divides_under_policies s w (.inr rfl)

/-- Settles O43: the negation is the difference of 0 and A. -/
theorem negUnderTheFivePolicies : Obligations.NegUnderTheFivePolicies := by
  unfold Obligations.NegUnderTheFivePolicies
  intro s w n x m
  have hexact : exactNeg (s.opA w) = some (exactInt n (((0 : Nat) : Int) - x)) :=
    aluExact_eq (op := .neg) nofun
  rw [exec_negWrap, exec_negOvf, exec_negChk, exec_negUnchk, exec_negSat, hexact]
  simpa [Nat.pos_iff_ne_zero, portOf] using
    answer_policy_sub s (Nat.two_pow_pos n) (low_lt s.ports.a n)

/-- Settles O45: the step-wise power is the power modulo `2^n` with the flag for an exact power above
`MAX_n`, so this is O44 by the flag. -/
theorem powIsTheStepwisePower : Obligations.PowIsTheStepwisePower := by
  unfold Obligations.PowIsTheStepwisePower
  intro s w n p
  let e := low s.ports.a n ^ s.ports.k.toNat
  have hp : p = (e % 2 ^ n, decide (¬ e ≤ 2 ^ n - 1)) := powc_eq (width_pos s w) _
  obtain ⟨hwrap, hovf, hfits, hover, hsat⟩ := powUnderTheFivePolicies s w
  rw [hp]
  refine ⟨hwrap, hovf, fun hf => ?_, fun hf => ?_⟩
  · have hle : e ≤ 2 ^ n - 1 := by simpa using hf
    have hmod : e % 2 ^ n = e := Nat.mod_eq_of_lt (by have := Nat.two_pow_pos n; omega)
    obtain ⟨hchk, hunchk⟩ := hfits hle
    refine ⟨hchk, hunchk, ?_⟩
    rw [hsat, Nat.min_eq_left hle, hmod]
  · have hgt : ¬ e ≤ 2 ^ n - 1 := by simpa using hf
    obtain ⟨hchk, hunchk⟩ := hover hgt
    refine ⟨hchk, hunchk, ?_⟩
    rw [hsat, Nat.min_eq_right (Nat.le_of_not_le hgt)]

/-- Settles O47, from the two statements on DIV and REM. -/
theorem zeroDivisorAborts : Obligations.ZeroDivisorAborts := by
  unfold Obligations.ZeroDivisorAborts
  intro s w
  obtain ⟨hdiv, hdivZero⟩ := divUnderTheFivePolicies s w
  obtain ⟨hrem, hremZero⟩ := remUnderTheFivePolicies s w
  refine ⟨fun hb => ?_, fun hb => ?_⟩
  · obtain ⟨hdivChk, hdivAborts⟩ := hdivZero hb
    obtain ⟨hremChk, hremAborts⟩ := hremZero hb
    exact ⟨List.forall_mem_append.2 ⟨hdivAborts, hremAborts⟩, hdivChk, hremChk⟩
  · refine List.forall_mem_append (l₁ := [_, _, _, _, _]).2 ⟨fun i hi => ?_, fun i hi => ?_⟩
    · exact ⟨_, hdiv hb i hi⟩
    · exact ⟨_, hrem hb i hi⟩

/-- Settles O48: the absolute value of the exact difference is below `2^n`. -/
theorem absdiffGivesTheDistance : Obligations.AbsdiffGivesTheDistance := by
  unfold Obligations.AbsdiffGivesTheDistance
  intro s w x y
  have hx : x < 2 ^ s.width w := low_lt _ _
  have hy : y < 2 ^ s.width w := low_lt _ _
  have hdist : (absDiff (s.opA w) (s.opB w)).toNat = if y ≤ x then x - y else y - x := by
    rw [absDiff, opA_toNat, opB_toNat, BitVec.toNat_ofNat, Nat.mod_eq_of_lt (by omega)]
    split <;> omega
  rw [exec_absdiff, State.answer, setResponse_value, zext_eq, hdist]

end Sys2Proof.Machine
end

section
/-! The answers of family 4 on the ports: a value of the width in force as port r carries it, and a
second command on the first one's result. -/

namespace Sys2Proof.Machine

/-- Answering a value, in the terms of the statements. -/
theorem answer_value_eq_completed (s : State) (r : Port) :
    s.answer (.done (Response.value r)) = .next (completed s r 0 false true) := by
  rw [State.answer, setResponse_value]

/-- The result of answering a value is the value. -/
@[simp] theorem resultOf_answer_value (s : State) (r : Port) :
    resultOf (s.answer (.done (Response.value r))) = some r := rfl

/-- A value of the width in force on a port stays below the width's power of two. -/
theorem zext_toNat_lt (s : State) (w : Width) (v : BitVec (s.width w)) :
    (zext v).toNat < 2 ^ s.width w := by
  rw [zext_eq, portOf_toNat _ (v.isLt.trans_le (two_pow_width_le s.params.pw w))]
  exact v.isLt

/-- Every bit of a value of the width in force stands in its place on a port. -/
theorem zext_getLsbD (s : State) (w : Width) (v : BitVec (s.width w)) (i : Nat) :
    (zext v).getLsbD i = v.getLsbD i := by
  rw [zext, BitVec.getLsbD_setWidth, Bool.and_eq_right_iff_imp]
  intro hi
  exact decide_eq_true ((BitVec.lt_of_getLsbD hi).trans_le (width_le s.params.pw w))

/-- A value of the width in force is read back from a port. -/
theorem setWidth_zext (s : State) (w : Width) (v : BitVec (s.width w)) :
    (zext v).setWidth (s.width w) = v :=
  opA_drive_zext s w v 0

/-- Operand A on a port. -/
theorem zext_opA (s : State) (w : Width) : zext (s.opA w) = portOf (low s.ports.a (s.width w)) := by
  rw [zext_eq, opA_toNat]

/-- A command that answers `op` of A and K, run on the value `v` with the same K, gives A back where
`op` takes `v` to A. -/
theorem resultOf_drive_of_undo {i : Instr} {w : Width} {op : ∀ {n : Nat}, BitVec n → Nat → BitVec n}
    (hexec : ∀ s : State, exec i s = s.answer (.done (Response.value (zext (op (s.opA w) s.opK)))))
    {s : State} {v : BitVec (s.width w)} (hundo : op v s.opK = s.opA w) :
    resultOf (exec i (s.drive (zext v) s.ports.b)) = some (portOf (low s.ports.a (s.width w))) := by
  have hr : zext (op ((s.drive (zext v) s.ports.b).opA w) s.opK) =
      portOf (low s.ports.a (s.width w)) := by
    rw [opA_drive_zext s w v, ← zext_opA, ← hundo]
    rfl
  rw [hexec, resultOf_answer_value]
  exact congrArg some hr

end Sys2Proof.Machine
end

section
/-! The rotates and the bit reversal (R200 to R203), bit by bit and as inverses. -/

namespace Sys2Proof.Machine

/-- An index moved `m` places up around `n` either stays below `n` or comes round once. -/
theorem add_mod_cases {n m i : Nat} (hm : m < n) (hi : i < n) :
    (i < n - m ∧ (i + m) % n = m + i) ∨ (n - m ≤ i ∧ (i + m) % n = i - (n - m)) := by
  rcases Nat.lt_or_ge i (n - m) with h | h
  · exact .inl ⟨h, by rw [Nat.mod_eq_of_lt (by omega), Nat.add_comm]⟩
  · exact .inr ⟨h, by rw [Nat.mod_eq_sub_mod (by omega), Nat.mod_eq_of_lt (by omega)]; omega⟩

/-- Every index below `n` is one moved `m` places up around `n`. -/
theorem exists_add_mod_eq {n m j : Nat} (hm : m < n) (hj : j < n) :
    ∃ i < n, (i + m) % n = j := by
  refine ⟨(j + (n - m)) % n, Nat.mod_lt _ (by omega), ?_⟩
  rw [Nat.mod_add_mod, Nat.add_assoc, Nat.sub_add_cancel hm.le, Nat.add_mod_right,
    Nat.mod_eq_of_lt hj]

section
variable {n : Nat} (x : BitVec n) (k : Nat) {i : Nat}

/-- ROTL sends each bit `k mod n` places up around the width (R200). -/
theorem rotLeft_getLsbD (hi : i < n) :
    (rotLeft x k).getLsbD ((i + k % n) % n) = x.getLsbD i := by
  have hm : k % n < n := Nat.mod_lt _ (by omega)
  have hbit (j : Nat) := BitVec.getLsbD_rotateLeft (x := x) (r := k) (i := j)
  rcases add_mod_cases hm hi with ⟨h, hj⟩ | ⟨h, hj⟩
  · rw [hj]
    refine (hbit _).trans ?_
    simp [show k % n + i < n by omega]
  · rw [hj]
    refine (hbit _).trans ?_
    simp [show i - (n - k % n) < k % n by omega, show n - k % n + (i - (n - k % n)) = i by omega]

/-- ROTR takes each bit from `k mod n` places up around the width (R201). -/
theorem rotRight_getLsbD (hi : i < n) :
    (rotRight x k).getLsbD i = x.getLsbD ((i + k % n) % n) := by
  have hm : k % n < n := Nat.mod_lt _ (by omega)
  refine (BitVec.getLsbD_rotateRight (x := x) (r := k) (i := i)).trans ?_
  rcases add_mod_cases hm hi with ⟨h, hj⟩ | ⟨h, hj⟩
  · simp [h, hj]
  · simp [h.not_gt, hi, hj]

/-- ROTR undoes ROTL (R202). -/
theorem rotRight_rotLeft : rotRight (rotLeft x k) k = x := by
  refine BitVec.eq_of_getLsbD_eq fun i hi => ?_
  rw [rotRight_getLsbD _ k hi, rotLeft_getLsbD x k hi]

/-- ROTL undoes ROTR (R202): bit `j` came to its place from some bit `i`. -/
theorem rotLeft_rotRight : rotLeft (rotRight x k) k = x := by
  refine BitVec.eq_of_getLsbD_eq fun j hj => ?_
  obtain ⟨i, hi, rfl⟩ := exists_add_mod_eq (Nat.mod_lt k (by omega)) hj
  rw [rotLeft_getLsbD _ k hi, rotRight_getLsbD x k hi]

/-- BREV answers bit `n-1-i` as bit `i` (R203). -/
theorem bitReverse_getLsbD (hi : i < n) : (bitReverse x).getLsbD i = x.getLsbD (n - 1 - i) := by
  rw [bitReverse, fromBits_getLsbD, decide_eq_true hi, Bool.true_and]

/-- BREV is its own inverse (R203). -/
theorem bitReverse_bitReverse : bitReverse (bitReverse x) = x := by
  refine BitVec.eq_of_getLsbD_eq fun i hi => ?_
  rw [bitReverse_getLsbD _ hi, bitReverse_getLsbD _ (by omega)]
  congr 1
  omega

end

end Sys2Proof.Machine
end

section
/-! The counts (R204 to R209): the number of bits with a value, and the length of the run of them at
one end. -/

namespace Sys2Proof.Machine

/-- The bits of operand A with the value `b`, as indices. -/
def State.bitsOfA (s : State) (w : Width) (b : Bool) : Finset Nat :=
  (Finset.range (s.width w)).filter fun i => s.ports.a.getLsbD i = b

/-- CNT1 and CNT0 count the indices below the width whose bit of port a has the value. -/
theorem countBits_opA (s : State) (w : Width) (b : Bool) :
    countBits b (s.opA w) = (s.bitsOfA w b).card := by
  have hbits (i : Nat) (hi : i ∈ List.range (s.width w)) :
      (s.opA w).getLsbD i == b ↔ decide (s.ports.a.getLsbD i = b) := by
    rw [opA_getLsbD s w i (List.mem_range.1 hi), beq_iff_eq, decide_eq_true_iff]
  calc countBits b (s.opA w)
      = (List.range (s.width w)).countP fun i => decide (s.ports.a.getLsbD i = b) :=
        List.countP_congr hbits
    _ = (s.bitsOfA w b).card := List.countP_eq_length_filter

/-- Every bit below the width is 1 or 0. -/
theorem card_bitsOfA_add (s : State) (w : Width) :
    (s.bitsOfA w true).card + (s.bitsOfA w false).card = s.width w := by
  simpa [State.bitsOfA] using
    Finset.card_filter_add_card_filter_not (s := Finset.range (s.width w))
      fun i => s.ports.a.getLsbD i = true

/-- The first `j` of `n` positions have the value `b`, and the next one, where there is one, does not
have it. -/
def IsRun (n : Nat) (bit : Nat → Bool) (b : Bool) (j : Nat) : Prop :=
  j ≤ n ∧ (∀ i < j, bit i = b) ∧ (j < n → bit j = !b)

/-- Taking positions as long as their bit is `b` takes the run. -/
theorem isRun_length_takeWhile (n : Nat) (bit : Nat → Bool) (b : Bool) :
    IsRun n bit b ((List.range n).takeWhile fun i => bit i == b).length := by
  let j := (List.range n).findIdx fun i => !(bit i == b)
  have hle : j ≤ n := List.findIdx_le_length.trans_eq List.length_range
  have hlength : ((List.range n).takeWhile fun i => bit i == b).length = j := by
    rw [List.takeWhile_eq_take_findIdx_not, List.length_take, List.length_range, Nat.min_eq_left hle]
  rw [hlength]
  refine ⟨hle, fun i hi => ?_, fun hj => ?_⟩
  · simpa using List.not_of_lt_findIdx hi
  · have hstop := List.findIdx_getElem (xs := List.range n) (p := fun i => !(bit i == b))
      (w := by rwa [List.length_range])
    rw [List.getElem_range] at hstop
    simpa [Bool.eq_not] using hstop

/-- A run is told by the first `n` positions alone. -/
theorem IsRun.congr {n : Nat} {bit bit' : Nat → Bool} {b : Bool} {j : Nat} (h : IsRun n bit b j)
    (heq : ∀ i < n, bit i = bit' i) : IsRun n bit' b j := by
  obtain ⟨hle, hrun, hstop⟩ := h
  exact ⟨hle, fun i hi => heq i (by omega) ▸ hrun i hi, fun hj => heq j hj ▸ hstop hj⟩

/-- LD1 and LD0 measure the run from bit `n-1` of port a downward (R206, R207). -/
theorem isRun_leadingRun (s : State) (w : Width) (b : Bool) :
    IsRun (s.width w) (fun i => s.ports.a.getLsbD (s.width w - 1 - i)) b
      (leadingRun b (s.opA w)) :=
  (isRun_length_takeWhile _ _ b).congr fun i hi => opA_getLsbD s w _ (by omega)

/-- TR1 and TR0 measure the run from bit 0 of port a upward (R208, R209). -/
theorem isRun_trailingRun (s : State) (w : Width) (b : Bool) :
    IsRun (s.width w) s.ports.a.getLsbD b (trailingRun b (s.opA w)) :=
  (isRun_length_takeWhile _ _ b).congr fun i hi => opA_getLsbD s w i hi

/-- A command that answers the length of a run, as the statement on LD and TR words it. -/
theorem exists_run_of_isRun {x : Result} {s : State} {n : Nat} {bit : Nat → Bool} {b : Bool}
    {j : Nat} (hexec : x = s.answer (.done (Response.value (natPort j)))) (h : IsRun n bit b j) :
    ∃ j ≤ n, x = .next (completed s (portOf j) 0 false true) ∧
      (∀ i < j, bit i = b) ∧ (j < n → bit j = !b) := by
  obtain ⟨hle, hrun, hstop⟩ := h
  exact ⟨j, hle, by rw [hexec, answer_value_eq_completed, natPort_eq], hrun, hstop⟩

end Sys2Proof.Machine
end

section
/-! The byte orders (R210 to R214): the byte reversal bit by bit, and what it and the conversions do
to the byte image (R43). -/

namespace Sys2Proof.Machine

/-- Every width in force is made of whole bytes (R9). -/
theorem eight_dvd_width (pw : PtrWidth) (w : Width) : 8 ∣ w.bits pw := by
  rcases width_cases pw w with h | h | h | h <;> rw [h] <;> decide

section
variable {n : Nat} (h8 : 8 ∣ n) (x : BitVec n)
include h8

/-- Bit `b` of byte `j` of the byte reversal is bit `b` of byte `n/8-1-j` (R210). -/
theorem byteSwap_getLsbD {j b : Nat} (hj : j < n / 8) (hb : b < 8) :
    (byteSwap x).getLsbD (8 * j + b) = x.getLsbD (n - 8 - 8 * j + b) := by
  rw [byteSwap, fromBits_getLsbD, decide_eq_true (by omega), Bool.true_and]
  congr 1
  omega

/-- The byte reversal is its own inverse (R210). -/
theorem byteSwap_byteSwap : byteSwap (byteSwap x) = x := by
  refine BitVec.eq_of_getLsbD_eq fun i hi => ?_
  obtain ⟨j, b, hb, rfl⟩ : ∃ j b, b < 8 ∧ i = 8 * j + b := ⟨i / 8, i % 8, by omega, by omega⟩
  obtain ⟨d, hd, hdj⟩ : ∃ d < n / 8, n - 8 - 8 * j = 8 * d := ⟨n / 8 - 1 - j, by omega, by omega⟩
  rw [byteSwap_getLsbD h8 _ (by omega) hb, hdj, byteSwap_getLsbD h8 _ hd hb]
  congr 1
  omega

/-- The big-endian image of a value is the little-endian image of its byte reversal (R43, R210). -/
theorem byteImage_be_eq_le_byteSwap : byteImage .be x = byteImage .le (byteSwap x) := by
  refine List.ext_getElem (by simp) fun j hj _ => ?_
  rw [length_byteImage] at hj
  simp only [getElem_byteImage, byteStart]
  ext b hb
  simp only [BitVec.getElem_extractLsb', byteSwap_getLsbD h8 x hj hb]

/-- The host's image of a value converted to an order is the value's image in that order (R211 to
R214). -/
theorem byteImage_toOrder (host target : Endian) :
    byteImage host (toOrder host target x) = byteImage target x := by
  cases host <;> cases target
  case le.le => rfl
  case be.be => rfl
  case le.be => exact (byteImage_be_eq_le_byteSwap h8 x).symm
  case be.le =>
    calc byteImage .be (byteSwap x)
        = byteImage .le (byteSwap (byteSwap x)) := byteImage_be_eq_le_byteSwap h8 _
      _ = byteImage .le x := by rw [byteSwap_byteSwap h8]

end

/-- A conversion answers the operand on a host of the target order, and the byte reversal on the other
host (R211 to R214). -/
theorem zext_toOrder (s : State) (w : Width) (target : Endian) :
    zext (toOrder s.params.endian target (s.opA w)) =
      if s.params.endian = target then portOf (low s.ports.a (s.width w))
      else zext (byteSwap (s.opA w)) := by
  rw [toOrder, apply_ite zext, zext_opA]

/-- The result of a conversion has, on the host, operand A's image in the target order. -/
theorem byteImage_of_resultOf_toOrder {x : Result} {s : State} {w : Width} {target : Endian}
    (hexec : x =
      s.answer (.done (Response.value (zext (toOrder s.params.endian target (s.opA w))))))
    {r : Port} (hr : resultOf x = some r) :
    byteImage s.params.endian (r.setWidth (s.width w)) =
      byteImage target (s.ports.a.setWidth (s.width w)) := by
  rw [hexec, resultOf_answer_value, Option.some.injEq] at hr
  rw [← hr, setWidth_zext]
  exact byteImage_toOrder (eight_dvd_width s.params.pw w) (s.opA w) _ target

end Sys2Proof.Machine
end

section
/-! The powers of two (R215, R216): one bit set, and the smallest power of two at or above a value. -/

namespace Sys2Proof.Machine

/-- Bit `j` is the only one set below the width exactly when the operand is `2^j` (R215). -/
theorem bitsOfA_eq_singleton_iff (s : State) (w : Width) (j : Nat) :
    s.bitsOfA w true = {j} ↔ j < s.width w ∧ low s.ports.a (s.width w) = 2 ^ j := by
  have hmem (i : Nat) :
      i ∈ s.bitsOfA w true ↔ (low s.ports.a (s.width w)).testBit i = true := by
    simp [State.bitsOfA, low, Nat.testBit_mod_two_pow, BitVec.testBit_toNat]
  constructor
  · intro h
    have hj : j ∈ s.bitsOfA w true := h ▸ Finset.mem_singleton_self j
    refine ⟨Finset.mem_range.1 (Finset.mem_filter.1 hj).1, Nat.eq_of_testBit_eq fun i => ?_⟩
    rw [Bool.eq_iff_iff, ← hmem, h, Nat.testBit_two_pow, Finset.mem_singleton, decide_eq_true_iff,
      eq_comm]
  · rintro ⟨-, hlow⟩
    ext i
    rw [hmem, hlow, Nat.testBit_two_pow, Finset.mem_singleton, decide_eq_true_iff, eq_comm]

/-- NEXTPOW2 finds the smallest power of two at or above a value up to `2^(n-1)` (R216). -/
theorem nextPow2_of_le {n : Nat} {x : BitVec n} (hn : 1 ≤ n) (hx : x.toNat ≤ 2 ^ (n - 1)) :
    ∃ j < n, nextPow2 x = 2 ^ j ∧ x.toNat ≤ 2 ^ j ∧ ∀ i < j, 2 ^ i < x.toNat := by
  cases hfind : (List.range n).find? fun j => decide (x.toNat ≤ 2 ^ j) with
  | none =>
    have hlt := List.find?_range_eq_none.1 hfind (n - 1) (by omega)
    simp [hx] at hlt
  | some j =>
    obtain ⟨hle, hj, hbelow⟩ := List.find?_range_eq_some.1 hfind
    exact ⟨j, List.mem_range.1 hj, by rw [nextPow2, hfind], by simpa using hle,
      fun i hi => by simpa using hbelow i hi⟩

/-- Above `2^(n-1)` the next power of two is `2^n` (R216). -/
theorem nextPow2_of_lt {n : Nat} {x : BitVec n} (hx : 2 ^ (n - 1) < x.toNat) :
    nextPow2 x = 2 ^ n := by
  have hnone : (List.range n).find? (fun j => decide (x.toNat ≤ 2 ^ j)) = none := by
    refine List.find?_range_eq_none.2 fun i hi => ?_
    have hpow : 2 ^ i ≤ 2 ^ (n - 1) := Nat.pow_le_pow_right (by decide) (by omega)
    simpa using hpow.trans_lt hx
  rw [nextPow2, hnone]

/-- A representable next power of two is the answer in both modes (R216). -/
theorem nextPow2Answer_of_lt {n : Nat} (mode : Strictness) {x : BitVec n} (h : nextPow2 x < 2 ^ n) :
    nextPow2Answer mode x = .done (Response.value (natPort (nextPow2 x))) :=
  if_pos (Nat.le_sub_one_of_lt h)

/-- `2^n` is not representable (R8). -/
theorem not_two_pow_le_maxNat (n : Nat) : ¬ 2 ^ n ≤ maxNat n :=
  (Nat.sub_one_lt (Nat.two_pow_pos n).ne').not_ge

/-- In strict mode a next power of two that is not representable aborts (R216). -/
theorem nextPow2Answer_strict {n : Nat} {x : BitVec n} (h : nextPow2 x = 2 ^ n) :
    nextPow2Answer .strict x = .abort .pow2Range :=
  if_neg (h ▸ not_two_pow_le_maxNat n)

/-- In permissive mode a next power of two that is not representable wraps to 0 (R216). -/
theorem nextPow2Answer_permissive {n : Nat} {x : BitVec n} (h : nextPow2 x = 2 ^ n) :
    nextPow2Answer .permissive x = .done (Response.value 0) :=
  if_neg (h ▸ not_two_pow_le_maxNat n)

end Sys2Proof.Machine
end

section
/-! The obligations of the bit-utility chapter (`44_bit_utilities.md`). -/

namespace Sys2Proof.Machine

/-- Settles O49: the rotates of operand A bit by bit. -/
theorem rotatesMoveBitsAroundTheWidth : Obligations.RotatesMoveBitsAroundTheWidth := by
  unfold Obligations.RotatesMoveBitsAroundTheWidth
  intro s w n m
  refine ⟨⟨zext (rotLeft (s.opA w) s.opK), exec_rotl w s, zext_toNat_lt s w _, fun i hi => ?_⟩,
    ⟨zext (rotRight (s.opA w) s.opK), exec_rotr w s, zext_toNat_lt s w _, fun i hi => ?_⟩⟩
  · calc (zext (rotLeft (s.opA w) s.opK)).getLsbD ((i + m) % n)
        = (rotLeft (s.opA w) s.opK).getLsbD ((i + m) % n) := zext_getLsbD s w _ _
      _ = (s.opA w).getLsbD i := rotLeft_getLsbD _ _ hi
      _ = s.ports.a.getLsbD i := opA_getLsbD s w i hi
  · calc (zext (rotRight (s.opA w) s.opK)).getLsbD i
        = (rotRight (s.opA w) s.opK).getLsbD i := zext_getLsbD s w _ _
      _ = (s.opA w).getLsbD ((i + m) % n) := rotRight_getLsbD _ _ hi
      _ = s.ports.a.getLsbD ((i + m) % n) := opA_getLsbD s w _ (Nat.mod_lt _ (width_pos s w))

/-- Settles O50: each rotate takes the other's value back to operand A. -/
theorem rotatesAreInverse : Obligations.RotatesAreInverse := by
  unfold Obligations.RotatesAreInverse
  intro s w
  refine ⟨⟨zext (rotLeft (s.opA w) s.opK), ?_, ?_⟩, ⟨zext (rotRight (s.opA w) s.opK), ?_, ?_⟩⟩
  · rw [exec_rotl, resultOf_answer_value]
  · exact resultOf_drive_of_undo (exec_rotr w) (rotRight_rotLeft _ _)
  · rw [exec_rotr, resultOf_answer_value]
  · exact resultOf_drive_of_undo (exec_rotl w) (rotLeft_rotRight _ _)

/-- Settles O51: the bit reversal of operand A bit by bit, and its inverse. -/
theorem brevReversesTheBits : Obligations.BrevReversesTheBits := by
  unfold Obligations.BrevReversesTheBits
  intro s w n
  refine ⟨zext (bitReverse (s.opA w)), exec_brev w s, zext_toNat_lt s w _, fun i hi => ?_,
    resultOf_drive_of_undo (op := fun x _ => bitReverse x) (exec_brev w) (bitReverse_bitReverse _)⟩
  calc (zext (bitReverse (s.opA w))).getLsbD i
      = (bitReverse (s.opA w)).getLsbD i := zext_getLsbD s w _ _
    _ = (s.opA w).getLsbD (n - 1 - i) := bitReverse_getLsbD _ hi
    _ = s.ports.a.getLsbD (n - 1 - i) := opA_getLsbD s w _ (by omega)

/-- Settles O52: the counts are the sizes of the two sets of indices, which fill the width. -/
theorem populationCountsCountBits : Obligations.PopulationCountsCountBits := by
  unfold Obligations.PopulationCountsCountBits
  intro s w n ones zeros
  have hcount (b : Bool) : s.answer (.done (Response.value (natPort (countBits b (s.opA w))))) =
      .next (completed s (portOf (s.bitsOfA w b).card) 0 false true) := by
    rw [answer_value_eq_completed, natPort_eq, countBits_opA]
  exact ⟨(exec_cnt1 w s).trans (hcount true), (exec_cnt0 w s).trans (hcount false),
    card_bitsOfA_add s w⟩

/-- Settles O53: each of the four commands answers the length of its run. -/
theorem leadingAndTrailingCountsMeasureRuns : Obligations.LeadingAndTrailingCountsMeasureRuns := by
  unfold Obligations.LeadingAndTrailingCountsMeasureRuns
  intro s w n a
  simp only [List.forall_mem_cons]
  exact ⟨⟨exists_run_of_isRun (exec_ld1 w s) (isRun_leadingRun s w true),
      exists_run_of_isRun (exec_ld0 w s) (isRun_leadingRun s w false), nofun⟩,
    exists_run_of_isRun (exec_tr1 w s) (isRun_trailingRun s w true),
    exists_run_of_isRun (exec_tr0 w s) (isRun_trailingRun s w false), nofun⟩

/-- Settles O54: the byte reversal of operand A byte by byte, its inverse and its byte image. -/
theorem bswapReversesTheBytes : Obligations.BswapReversesTheBytes := by
  unfold Obligations.BswapReversesTheBytes
  intro s w n
  have h8 : 8 ∣ n := eight_dvd_width s.params.pw w
  refine ⟨zext (byteSwap (s.opA w)), exec_bswap w s, zext_toNat_lt s w _, fun j hj b hb => ?_,
    resultOf_drive_of_undo (op := fun x _ => byteSwap x) (exec_bswap w) (byteSwap_byteSwap h8 _), ?_⟩
  · calc (zext (byteSwap (s.opA w))).getLsbD (8 * j + b)
        = (byteSwap (s.opA w)).getLsbD (8 * j + b) := zext_getLsbD s w _ _
      _ = (s.opA w).getLsbD (n - 8 - 8 * j + b) := byteSwap_getLsbD h8 _ hj hb
      _ = s.ports.a.getLsbD (n - 8 - 8 * j + b) := opA_getLsbD s w _ (by omega)
  · rw [setWidth_zext]
    exact byteImage_be_eq_le_byteSwap h8 (s.opA w)

/-- Settles O55: the conversions by the host's byte order, and their byte images. -/
theorem byteOrderConversionsFollowEndian : Obligations.ByteOrderConversionsFollowEndian := by
  unfold Obligations.ByteOrderConversionsFollowEndian
  intro s w n a
  refine ⟨zext (byteSwap (s.opA w)), exec_bswap w s, ?_, ?_,
    fun r => byteImage_of_resultOf_toOrder (exec_tobe w s),
    fun r => byteImage_of_resultOf_toOrder (exec_tole w s)⟩
  · simp only [List.forall_mem_cons]
    rw [exec_tobe, exec_frombe, answer_value_eq_completed, zext_toOrder]
    cases s.params.endian <;> exact ⟨rfl, rfl, nofun⟩
  · simp only [List.forall_mem_cons]
    rw [exec_tole, exec_fromle, answer_value_eq_completed, zext_toOrder]
    cases s.params.endian <;> exact ⟨rfl, rfl, nofun⟩

/-- Settles O56: the flag compares CNT1 with 1, and a set of one index is one power of two. -/
theorem ispowTwoIsExactlyOneBit : Obligations.IspowTwoIsExactlyOneBit := by
  unfold Obligations.IspowTwoIsExactlyOneBit
  intro s w n
  have hexec : exec (.ispow2 w) s =
      .next (completed s 0 0 (decide ((s.bitsOfA w true).card = 1)) true) := by
    rw [exec_ispow2, countBits_opA, State.answer, setResponse_flagged]
  refine ⟨hexec, ?_⟩
  rw [hexec, flagOf_completed, Option.some.injEq, decide_eq_true_iff, Finset.card_eq_one]
  exact exists_congr (bitsOfA_eq_singleton_iff s w)

/-- Settles O57: up to `2^(n-1)` the next power of two is representable, above it is `2^n`. -/
theorem nextPowTwoRoundsUpAbortsOrWraps : Obligations.NextPowTwoRoundsUpAbortsOrWraps := by
  unfold Obligations.NextPowTwoRoundsUpAbortsOrWraps
  intro s w n x
  have hx : (s.opA w).toNat = x := opA_toNat s w
  rw [exec_nextpow2]
  refine ⟨fun hle => ?_, fun hlt hmode => ?_, fun hlt hmode => ?_⟩
  · obtain ⟨j, hj, hnext, hup, hbelow⟩ := nextPow2_of_le (width_pos s w) (hx.trans_le hle)
    refine ⟨j, hj, ?_, hx ▸ hup, hx ▸ hbelow⟩
    have hfits : nextPow2 (s.opA w) < 2 ^ n := hnext ▸ Nat.pow_lt_pow_right (by decide) hj
    rw [nextPow2Answer_of_lt _ hfits, answer_value_eq_completed, natPort_eq, hnext]
  · rw [hmode, nextPow2Answer_strict (nextPow2_of_lt (hlt.trans_eq hx.symm))]
    exact abortsWith_takeAbort s .pow2Range
  · rw [hmode, nextPow2Answer_permissive (nextPow2_of_lt (hlt.trans_eq hx.symm))]
    exact answer_value_eq_completed s 0

end Sys2Proof.Machine
end

section
/-! The floor logarithms and the floor square root (R230 to R233): the loops of R234 compute Mathlib's
`Nat.log` and `Nat.sqrt`, and the highest set bit is bounded by its powers of two. -/

namespace Sys2Proof.Machine

/-- The division loop of R234 computes the floor logarithm where the rounds it is given suffice. -/
theorem ilogLoop_eq_log {base fuel v : Nat} (hb : 2 ≤ base) (hv : v < 2 ^ fuel) :
    ilogLoop base fuel v = Nat.log base v := by
  induction fuel generalizing v with
  | zero =>
    obtain rfl : v = 0 := by simpa using hv
    exact (Nat.log_zero_right base).symm
  | succ fuel ih =>
    rw [ilogLoop]
    split
    next hle =>
      have hquot : v / base < 2 ^ fuel := by
        refine Nat.div_lt_of_lt_mul (hv.trans_le ?_)
        rw [pow_succ']
        exact Nat.mul_le_mul_right _ hb
      rw [ih hquot, ← Nat.log_of_one_lt_of_le hb hle]
    next hlt => exact (Nat.log_of_lt (not_le.1 hlt)).symm

/-- A command that answers the division loop's count answers the floor logarithm, which is below the
width (R230). -/
theorem exists_floorLog_of_answer {x : Result} {s : State} {n base v : Nat}
    (hexec : x = s.answer (.done (Response.value (natPort (ilogNat n base v)))))
    (hv : v < 2 ^ n) (hv0 : v ≠ 0) (hb : 2 ≤ base) :
    ∃ e, x = .next (completed s (portOf e) 0 false true) ∧
      base ^ e ≤ v ∧ v < base ^ (e + 1) ∧ e < n := by
  have hn : v < base ^ n := hv.trans_le (Nat.pow_le_pow_left hb n)
  refine ⟨Nat.log base v, ?_, Nat.pow_log_le_self base hv0, Nat.lt_pow_succ_log_self hb v,
    Nat.log_lt_of_lt_pow hv0 hn⟩
  rw [hexec, answer_value_eq_completed, natPort_eq, ilogNat, ilogLoop_eq_log hb hv]

/-- The bit below the bit length of a value that is not zero is its highest set bit (R231). -/
theorem bitLength_sub_one_spec {n : Nat} {x : BitVec n} (hx : x.toNat ≠ 0) :
    bitLength x - 1 < n ∧ x.getLsbD (bitLength x - 1) = true ∧
      x.toNat < 2 ^ (bitLength x - 1 + 1) := by
  obtain ⟨hle, hlt, hbit⟩ := bitLength_spec x
  have hpos : 0 < bitLength x := by
    refine Nat.pos_of_ne_zero fun h0 => hx ?_
    rw [h0, pow_zero] at hlt
    omega
  exact ⟨by omega, hbit hpos, by rwa [Nat.sub_add_cancel hpos]⟩

/-- The trial-squaring loop of R234 computes the floor root: the bits decided so far give a `q` with
`q*q <= v < (q+2^j)*(q+2^j)`. -/
theorem isqrtLoop_eq_sqrt {v j q : Nat} (hlow : q * q ≤ v)
    (hhigh : v < (q + 2 ^ j) * (q + 2 ^ j)) : isqrtLoop v j q = Nat.sqrt v := by
  induction j generalizing q with
  | zero => exact Nat.eq_sqrt.2 ⟨hlow, hhigh⟩
  | succ j ih =>
    rw [isqrtLoop]
    split
    next htrial =>
      refine ih htrial ?_
      rwa [add_assoc, ← two_mul, ← pow_succ']
    next htrial => exact ih hlow (not_le.1 htrial)

/-- Every width in force is even (R9), so the square of `2^(n/2)` is `2^n`. -/
theorem two_pow_half_width_mul_self (s : State) (w : Width) :
    2 ^ (s.width w / 2) * 2 ^ (s.width w / 2) = 2 ^ s.width w := by
  have h8 : 8 ∣ s.width w := eight_dvd_width s.params.pw w
  rw [← pow_add]
  congr 1
  omega

/-- The trial squaring from bit `n/2-1` down gives the floor root of every `n`-bit value (R233). -/
theorem isqrtNat_eq_sqrt (s : State) (w : Width) {v : Nat} (hv : v < 2 ^ s.width w) :
    isqrtNat (s.width w) v = Nat.sqrt v := by
  refine isqrtLoop_eq_sqrt (Nat.zero_le v) ?_
  rwa [zero_add, two_pow_half_width_mul_self]

end Sys2Proof.Machine
end

section
/-! The obligations of the logarithm and root chapter (`45_log_root.md`). -/

namespace Sys2Proof.Machine

/-- Settles O58: the division loop gives the floor logarithm, and the tests before it the aborts. -/
theorem ilogIsTheFloorLogarithm : Obligations.IlogIsTheFloorLogarithm := by
  unfold Obligations.IlogIsTheFloorLogarithm
  intro s w x y
  have hx : x < 2 ^ s.width w := low_lt s.ports.a (s.width w)
  rw [exec_ilog, exec_ilog10, opA_toNat, opB_toNat]
  refine ⟨fun hx0 hy => ?_, fun hdom => ?_, fun hx0 => ?_, fun hx0 => ?_⟩
  · exact exists_floorLog_of_answer (by rw [if_neg (not_or.2 ⟨hx0, hy.not_gt⟩)]) hx hx0 hy
  · rw [if_pos hdom]
    exact abortsWith_takeAbort s .logDomain
  · exact exists_floorLog_of_answer (by rw [if_neg hx0]) hx hx0 (by decide)
  · rw [if_pos hx0]
    exact abortsWith_takeAbort s .logDomain

/-- Settles O59: the bit below the bit length is set, and the value lies below the next power. -/
theorem ilogTwoIsTheHighestSetBit : Obligations.IlogTwoIsTheHighestSetBit := by
  unfold Obligations.IlogTwoIsTheHighestSetBit
  intro s w n x
  have hx : (s.opA w).toNat = x := opA_toNat s w
  rw [exec_ilog2, hx]
  refine ⟨fun hx0 => ?_, fun hx0 => ?_⟩
  · obtain ⟨hj, hbit, hlt⟩ := bitLength_sub_one_spec (hx.trans_ne hx0)
    refine ⟨bitLength (s.opA w) - 1, hj, ?_, opA_getLsbD s w _ hj ▸ hbit, fun i hi hji => ?_,
      hx ▸ Nat.ge_two_pow_of_testBit hbit, hx ▸ hlt⟩
    · rw [if_neg hx0, answer_value_eq_completed, natPort_eq]
    · rw [← opA_getLsbD s w i hi]
      exact Nat.testBit_lt_two_pow (hlt.trans_le (Nat.pow_le_pow_right (by decide) hji))
  · rw [if_pos hx0]
    exact abortsWith_takeAbort s .logDomain

/-- Settles O60: the trial squaring gives the floor root, which fits half the width. -/
theorem isqrtIsTheFloorRoot : Obligations.IsqrtIsTheFloorRoot := by
  unfold Obligations.IsqrtIsTheFloorRoot
  intro s w x
  have hx : x < 2 ^ s.width w := low_lt s.ports.a (s.width w)
  refine ⟨Nat.sqrt x, ?_, Nat.sqrt_le x, Nat.lt_succ_sqrt x, Nat.sqrt_lt.2 ?_⟩
  · rw [exec_isqrt, opA_toNat, isqrtNat_eq_sqrt s w hx, answer_value_eq_completed, natPort_eq]
  · rwa [two_pow_half_width_mul_self]

end Sys2Proof.Machine
end

section
/-! How a command ends, read off its response: the cause code of an abort. It is that of the abort
table (R240) for every instruction in every state, and how an instruction ends follows from it. -/

namespace Sys2Proof.Machine

/-- The cause code on the ports of a command that aborted (R31, R249 b); none if it did not. -/
def abortCodeOf (x : Result) : Option CauseCode :=
  match x with
  | .next t => t.response.bind fun resp => if resp.abort then some resp.cause else none
  | .fault _ => none
  | .refused _ => none

/-- Taking an abort puts its code on the ports. -/
theorem abortCodeOf_takeAbort (s : State) (c : Cause) :
    abortCodeOf (.next (s.takeAbort c)) = some c.code := rfl

/-- An abort of the statements has the code of its cause. -/
theorem abortCodeOf_of_abortsWith {x : Result} {s : State} {c : Cause} (h : AbortsWith x s c) :
    abortCodeOf x = some c.code := by
  obtain ⟨f, rfl⟩ := h
  rw [cause_code]
  rfl

/-- A command that completed has no cause code. -/
theorem abortCodeOf_completed (s : State) (r r2 : Port) (fo ok : Bool) :
    abortCodeOf (.next (completed s r r2 fo ok)) = none := rfl

/-- What a good answer's response is: no abort, and cause 0 (R32). -/
theorem abort_cause_of_good_done {resp : Response} (h : (Answer.done resp).good = true) :
    resp.abort = false ∧ resp.cause = 0 := by
  rw [Answer.good, Bool.and_eq_true, Bool.not_eq_true'] at h
  obtain ⟨hgood, habort⟩ := h
  rw [Response.good, habort, Bool.and_eq_true] at hgood
  obtain ⟨-, hcause⟩ := hgood
  exact ⟨habort, eq_of_beq hcause⟩

/-- A command that gives a good answer's response has no cause code. -/
theorem abortCodeOf_setResponse {s : State} {resp : Response}
    (h : (Answer.done resp).good = true) : abortCodeOf (.next (s.setResponse resp)) = none := by
  obtain ⟨habort, -⟩ := abort_cause_of_good_done h
  exact if_neg (by simp [habort])

/-- Distinct causes have distinct codes (R240). -/
theorem Cause.code_injective : Function.Injective Cause.code := by
  intro c c'
  cases c <;> cases c' <;> decide

/-! The sub-word accessors: IDX_RANGE (R242). -/

/-- A checked get never aborts (R109). -/
theorem abortCodeOf_getChecked (s : State) (v : Option Port) :
    abortCodeOf (s.getChecked v) = none := by
  cases v <;> rfl

/-- A checked set never aborts (R113). -/
theorem abortCodeOf_setChecked (s : State) (after : Option State) :
    abortCodeOf (s.setChecked after) = none := by
  cases after <;> rfl

section
variable (s : State) (w : Width) (sw : SubWidth) (i : BitVec 8)

/-- An unchecked get aborts exactly at an index out of range (R107). -/
theorem abortCodeOf_getUnchecked (ext : BitVec sw.bits → Port) :
    abortCodeOf (s.getUnchecked ((s.subWordAt w sw i).map ext)) =
      (if i.toNat < s.width w / sw.bits then none else some Cause.idxRange).map Cause.code := by
  by_cases hi : i.toNat < s.width w / sw.bits
  · rw [subWordAt_of_inRange hi, if_pos hi]
    rfl
  · rw [subWordAt_of_outOfRange hi, if_neg hi]
    rfl

/-- An unchecked set aborts exactly at an index out of range (R111). -/
theorem abortCodeOf_setUnchecked :
    abortCodeOf (s.setUnchecked (s.withSubWord w sw i)) =
      (if i.toNat < s.width w / sw.bits then none else some Cause.idxRange).map Cause.code := by
  by_cases hi : i.toNat < s.width w / sw.bits
  · rw [withSubWord_of_inRange hi, if_pos hi]
    rfl
  · rw [withSubWord_of_outOfRange hi, if_neg hi]
    rfl

end

/-! The five policies: DIV_ZERO (R243) and OVERFLOW (R244). -/

/-- `.chk` never aborts, not even for a zero divisor (R150, R190). -/
theorem abortCodeOf_chk (s : State) (op : AluOp) (w : Width) :
    abortCodeOf (exec (aluInstr op .chk w) s) = none := by
  rw [exec_aluInstr]
  cases s.aluExact op w with
  | none => rfl
  | some x =>
    rw [policyAnswer]
    split
    · rfl
    · rfl

/-- DIV and REM under a policy other than `.chk` abort exactly for a zero divisor (R243): what they
give otherwise is representable. -/
theorem abortCodeOf_divides (s : State) (op : AluOp) (p : Policy) (w : Width)
    (hop : op = .div ∨ op = .rem) (hp : p ≠ .chk) :
    abortCodeOf (exec (aluInstr op p w) s) =
      (if low s.ports.b (s.width w) = 0 then some Cause.divZero else none).map Cause.code := by
  by_cases hb : low s.ports.b (s.width w) = 0
  · rw [exec_aluInstr, aluExact_eq_none hop hb, if_pos hb]
    cases p with
    | chk => exact absurd rfl hp
    | wrap | ovf | unchk | sat => rfl
  · have hrep := representable_of_divides s w hop
    rw [exec_aluInstr_eq (fun _ => hb), answer_of_representable s p hrep, if_neg hb,
      abortCodeOf_completed]
    rfl

/-- An operation under `.unchk` aborts exactly where its exact result is not representable (R244). -/
theorem abortCodeOf_unchk (s : State) (op : AluOp) (w : Width) {P : Prop} [Decidable P]
    (hop : ¬ (op = .div ∨ op = .rem))
    (hP : representable (s.width w) (s.aluNumber op w) = false ↔ P) :
    abortCodeOf (exec (aluInstr op .unchk w) s) = (overflowIf P).map Cause.code := by
  rw [exec_aluInstr_eq (fun h => absurd h hop)]
  by_cases h : P
  · have habort := answer_unchk_of_not_representable s (hP.2 h)
    rw [abortCodeOf_of_abortsWith habort, overflowIf, if_pos h]
    rfl
  · have hrep := eq_true_of_ne_false (mt hP.1 h)
    rw [answer_of_representable s .unchk hrep, overflowIf, if_neg h, abortCodeOf_completed]
    rfl

/-- A natural exact result is not representable exactly above `MAX_n` (R8). -/
theorem representable_natCast_eq_false {n m : Nat} :
    representable n (m : Int) = false ↔ m > 2 ^ n - 1 := by
  have hpos := Nat.two_pow_pos n
  have hcast : (m : Int) < (2 : Int) ^ n ↔ m < 2 ^ n := by exact_mod_cast Iff.rfl
  rw [← Bool.not_eq_true, representable_iff, hcast]
  omega

/-- A difference of limbs is not representable exactly where it is negative (R8). -/
theorem representable_sub_eq_false {n x y : Nat} (hx : x < 2 ^ n) :
    representable n ((x : Int) - y) = false ↔ x < y := by
  rw [representable_sub y hx, decide_eq_false_iff_not, not_le]

/-! The logarithms and NEXTPOW2: LOG_DOMAIN (R245) and POW2_RANGE (R246). -/

/-- A command that tests its domain first aborts exactly outside of it. -/
theorem abortCodeOf_answer_ite (s : State) (P : Prop) [Decidable P] (c : Cause) (r : Port) :
    abortCodeOf (s.answer (if P then .abort c else .done (Response.value r))) =
      (if P then some c else none).map Cause.code := by
  split
  · rfl
  · rfl

/-- NEXTPOW2 aborts exactly in strict mode, above `2^(n-1)` (R216, R246). -/
theorem abortCodeOf_nextPow2 (s : State) {n : Nat} (hn : 1 ≤ n) (mode : Strictness)
    (x : BitVec n) :
    abortCodeOf (s.answer (nextPow2Answer mode x)) =
      (if mode = .strict ∧ x.toNat > 2 ^ (n - 1) then some Cause.pow2Range else none).map
        Cause.code := by
  by_cases hx : x.toNat > 2 ^ (n - 1)
  · cases mode with
    | strict =>
      rw [nextPow2Answer_strict (nextPow2_of_lt hx), if_pos ⟨rfl, hx⟩]
      rfl
    | permissive =>
      rw [nextPow2Answer_permissive (nextPow2_of_lt hx), if_neg (by simp)]
      rfl
  · obtain ⟨j, hj, hnext, -⟩ := nextPow2_of_le hn (not_lt.1 hx)
    have hfits : nextPow2 x < 2 ^ n := hnext ▸ Nat.pow_lt_pow_right (by decide) hj
    rw [nextPow2Answer_of_lt mode hfits, if_neg (fun h => hx h.2)]
    rfl

/-- Every instruction aborts with the code the table names for it in the state, and with none where
the table names none (R240). -/
theorem abortCodeOf_exec (i : Instr) (s : State) :
    abortCodeOf (exec i s) = (abortCause s i).map Cause.code := by
  cases i with
  | zero | setU | setS | newarrU | newarrS | getU | getS | adc | sbb | mulw | mulc
  | addWrap | addOvf | addSat | subWrap | subOvf | subSat | mulWrap | mulOvf | mulSat
  | negWrap | negOvf | negSat | powWrap | powOvf | powSat
  | absdiff | rotl | rotr | brev | cnt1 | cnt0 | ld1 | ld0 | tr1 | tr0
  | bswap | tobe | tole | frombe | fromle | ispow2 | isqrt => rfl
  | getswcU | getswcS => exact abortCodeOf_getChecked _ _
  | setswcU | setswcS => exact abortCodeOf_setChecked _ _
  | getswU w sw i | getswS w sw i => exact abortCodeOf_getUnchecked s w sw i _
  | setswU w sw i | setswS w sw i => exact abortCodeOf_setUnchecked s w sw i
  | addChk w => exact abortCodeOf_chk s .add w
  | subChk w => exact abortCodeOf_chk s .sub w
  | mulChk w => exact abortCodeOf_chk s .mul w
  | divChk w => exact abortCodeOf_chk s .div w
  | remChk w => exact abortCodeOf_chk s .rem w
  | negChk w => exact abortCodeOf_chk s .neg w
  | powChk w => exact abortCodeOf_chk s .pow w
  | divWrap w => exact abortCodeOf_divides s .div .wrap w (.inl rfl) nofun
  | divOvf w => exact abortCodeOf_divides s .div .ovf w (.inl rfl) nofun
  | divUnchk w => exact abortCodeOf_divides s .div .unchk w (.inl rfl) nofun
  | divSat w => exact abortCodeOf_divides s .div .sat w (.inl rfl) nofun
  | remWrap w => exact abortCodeOf_divides s .rem .wrap w (.inr rfl) nofun
  | remOvf w => exact abortCodeOf_divides s .rem .ovf w (.inr rfl) nofun
  | remUnchk w => exact abortCodeOf_divides s .rem .unchk w (.inr rfl) nofun
  | remSat w => exact abortCodeOf_divides s .rem .sat w (.inr rfl) nofun
  | addUnchk w => exact abortCodeOf_unchk s .add w nofun representable_natCast_eq_false
  | mulUnchk w => exact abortCodeOf_unchk s .mul w nofun representable_natCast_eq_false
  | powUnchk w => exact abortCodeOf_unchk s .pow w nofun representable_natCast_eq_false
  | subUnchk w =>
    exact abortCodeOf_unchk s .sub w nofun (representable_sub_eq_false (low_lt _ _))
  | negUnchk w =>
    exact abortCodeOf_unchk s .neg w nofun
      ((representable_sub_eq_false (Nat.two_pow_pos _)).trans Nat.pos_iff_ne_zero)
  | nextpow2 w =>
    rw [exec_nextpow2, abortCodeOf_nextPow2 s (width_pos s w), opA_toNat, abortCause]
  | ilog w => rw [exec_ilog, abortCodeOf_answer_ite, opA_toNat, opB_toNat, abortCause]
  | ilog2 w => rw [exec_ilog2, abortCodeOf_answer_ite, opA_toNat, abortCause]
  | ilog10 w => rw [exec_ilog10, abortCodeOf_answer_ite, opA_toNat, abortCause]

/-- Where the table names a cause, the instruction takes that abort. -/
theorem exec_of_abortCause_some {i : Instr} {s : State} {c : Cause} (h : abortCause s i = some c) :
    exec i s = .next (s.takeAbort c) := by
  have hcode : abortCodeOf (exec i s) = some c.code := by rw [abortCodeOf_exec, h, Option.map_some]
  obtain ⟨resp, hgood, hx⟩ | ⟨c', hx⟩ | ⟨-, v, hx⟩ := exec_ends i s
  · rw [hx, abortCodeOf_setResponse hgood] at hcode
    contradiction
  · rw [hx, abortCodeOf_takeAbort, Option.some.injEq] at hcode
    rw [hx, Cause.code_injective hcode]
  · rw [hx, abortCodeOf_setResponse (resp := .done) (good_value 0)] at hcode
    contradiction

/-- Where the table names no cause, the instruction completes. -/
theorem exec_of_abortCause_none {i : Instr} {s : State} (h : abortCause s i = none) :
    ∃ t x, exec i s = .next t ∧ t.response = some x ∧ x.abort = false ∧ x.cause = 0 ∧
      t.runFault = s.runFault := by
  obtain ⟨resp, hgood, hx⟩ | ⟨c, hx⟩ | ⟨-, v, hx⟩ := exec_ends i s
  · obtain ⟨habort, hcause⟩ := abort_cause_of_good_done hgood
    exact ⟨_, resp, hx, rfl, habort, hcause, rfl⟩
  · have hcode := abortCodeOf_exec i s
    rw [h, hx, abortCodeOf_takeAbort] at hcode
    contradiction
  · exact ⟨_, Response.done, hx, rfl, rfl, rfl, by simp⟩

/-- The table names no cause for a command of the list of R255. -/
theorem abortCause_of_neverAborts {i : Instr} {s : State}
    (h : neverAborts s.params.strict i = true) : abortCause s i = none := by
  cases i with
  | nextpow2 w =>
    have hmode : s.params.strict = .permissive := of_decide_eq_true h
    exact if_neg (by simp [hmode])
  | getswU | getswS | setswU | setswS | addUnchk | subUnchk | mulUnchk | negUnchk | powUnchk
  | divWrap | divOvf | divUnchk | divSat | remWrap | remOvf | remUnchk | remSat
  | ilog | ilog2 | ilog10 => contradiction
  | _ => rfl

end Sys2Proof.Machine
end

section
/-! What a command does to the run's abort record (R249, log entry 6). -/

namespace Sys2Proof.Machine

/-- The abort response names its cause. -/
theorem Response.aborted_injective : Function.Injective Response.aborted := fun _ _ h =>
  Cause.code_injective (congrArg Response.cause h)

/-- The abort response, in the terms of the statements. -/
theorem Response.aborted_eq (c : Cause) :
    Response.aborted c = { r := 0, r2 := 0, fo := false, ok := false, abort := true,
                           cause := BitVec.ofNat 4 (abortCode c) } := by
  rw [Response.aborted, cause_code]

/-- A good response that is no abort is not the abort response of any cause. -/
theorem ne_aborted_of_good_done {resp : Response} (h : (Answer.done resp).good = true) (c : Cause) :
    resp ≠ Response.aborted c := by
  rintro rfl
  simp [Answer.good, Response.aborted] at h

/-- A command keeps an abort that is on record. -/
theorem runCommand_keeps_runFault {s t : State} {f : Cause} (h : runCommand s = .next t)
    (hf : s.runFault = some f) : t.runFault = some f := by
  obtain ⟨resp, -, rfl⟩ | ⟨c, rfl⟩ | ⟨w, v, rfl⟩ := runCommand_cases h <;> simp [hf]

/-- With none on record, a command records exactly the abort it answers. -/
theorem runCommand_records_abort {s t : State} (h : runCommand s = .next t)
    (hnone : s.runFault = none) (f : Cause) :
    t.runFault = some f ↔ t.response = some (Response.aborted f) := by
  obtain ⟨resp, hgood, rfl⟩ | ⟨c, rfl⟩ | ⟨w, v, rfl⟩ := runCommand_cases h
  · simp [hnone, ne_aborted_of_good_done hgood]
  · simp [hnone, Response.aborted_injective.eq_iff]
  · simp [hnone, ne_aborted_of_good_done (resp := .done) (good_value 0)]

end Sys2Proof.Machine
end

section
/-! The obligations of the exceptions chapter (`60_exceptions.md`). -/

namespace Sys2Proof.Machine

/-- Settles O17: every instruction ends as the table says, and a refused word aborts before any is
executed. -/
theorem abortsAreExactlyThoseOfTheTable : Obligations.AbortsAreExactlyThoseOfTheTable := by
  unfold Obligations.AbortsAreExactlyThoseOfTheTable
  intro i s
  refine ⟨fun c hcause => ?_, exec_of_abortCause_none, fun c rest e => step_abortsWith_of_reject⟩
  rw [exec_of_abortCause_some hcause]
  exact abortsWith_takeAbort s c

/-- Settles O13, by what the step does: only a command touches the record, and it records its own
abort. -/
theorem aRunFaultIsNeverCleared : Obligations.ARunFaultIsNeverCleared := by
  unfold Obligations.ARunFaultIsNeverCleared
  intro s t hstep
  refine ⟨fun f hf => ?_, fun c rest hpending hnone f => ?_⟩
  · obtain rfl | ⟨c, rest, hrun⟩ | ⟨rest, rfl⟩ := step_cases hstep
    · exact hf
    · exact runCommand_keeps_runFault hrun hf
    · exact hf
  · rw [step_of_command hpending] at hstep
    rw [← Response.aborted_eq]
    exact runCommand_records_abort hstep hnone f

/-- Settles O18: the abort table names no cause for a listed command. -/
theorem listedCommandsNeverAbort : Obligations.ListedCommandsNeverAbort := by
  unfold Obligations.ListedCommandsNeverAbort
  intro i s hlisted
  obtain ⟨t, x, hexec, hresp, habort, -, hrecord⟩ :=
    exec_of_abortCause_none (abortCause_of_neverAborts hlisted)
  exact ⟨t, x, hexec, hresp, habort, hrecord⟩

/-- Settles O6: with no event pending a step is the idle step. -/
theorem nothingHappensWithoutAnEvent : Obligations.NothingHappensWithoutAnEvent := by
  unfold Obligations.NothingHappensWithoutAnEvent
  intro s hidle
  exact step_of_idle hidle

end Sys2Proof.Machine
end

section
/-! The obligation of the reset and hazards chapter (`70_reset_and_hazards.md`). -/

namespace Sys2Proof.Machine

/-- Settles O7: the step is the reset event, which cuts the free content it gives VP to the pointer
width. -/
theorem resetEventKeepsParametersAndAbortRecordDropsResponse :
    Obligations.ResetEventKeepsParametersAndAbortRecordDropsResponse := by
  unfold Obligations.ResetEventKeepsParametersAndAbortRecordDropsResponse
  intro s rest hpending
  have hvp : (s.applyReset rest).vp.toNat < 2 ^ s.params.pw.bits :=
    ptrCut_lt s.params.pw (Config.resetVP s.resets)
  exact ⟨s.applyReset rest, step_of_reset hpending, rfl, rfl, rfl, rfl, rfl, hvp⟩

end Sys2Proof.Machine
end
